-- ==== Sys2Proof/Word.lean ====
section
/-! DEFINITION. The word, byte and register-field types (00_scope R7, R8; 10_state R20; 30_encoding R65). -/

namespace Sys2Proof

/-- A 16-bit word: a register, a memory cell, an address or an instruction word (R8). `+` on it is
modulo 65536, `&&&` and `~~~` are bitwise. -/
abbrev Word := BitVec 16

/-- A character on the input or output side (R130, R32). -/
abbrev Byte := BitVec 8

/-- A 3-bit register field; value i selects Ri (R65). -/
abbrev Reg := BitVec 3

end Sys2Proof
end

