-- ==== Sys2Proof/Config.lean ====
section
/-! DEFINITION. What an implementation fixes (00_scope R5, R6) and the one free value. The default values
stand in Machine/Params.lean. -/

namespace Sys2Proof

/-- The named parameters of R5 that the source does not fix. R6: a model takes them as arguments of
its configuration; they stand in `State.cfg`, which no step changes, so a claim about every state
is a claim about every value of them. -/
structure Config where
  /-- KBSR_ADDR, the keyboard status cell's address (D7). -/
  kbsrAddr : Word
  /-- KBDR_ADDR, the keyboard data cell's address (D7). -/
  kbdrAddr : Word
  /-- IN_PROMPT, the bytes IN emits before it waits (D17). -/
  inPrompt : List Byte
  /-- HALT_MESSAGE, the bytes HALT emits (D18). -/
  haltMessage : List Byte
  /-- JSRR_LINK_FIRST: whether JSRR writes R7 before it reads BaseR (D19). -/
  jsrrLinkFirst : Bool
  /-- EXIT_HALT, the host's success status (D24). -/
  exitHalt : Nat
  /-- EXIT_FAULT, the host's status after a fault (D24). -/
  exitFault : Nat
  /-- EXIT_USAGE, the host's status when no image is given (D24). -/
  exitUsage : Nat
  /-- EXIT_LOAD, the host's status when an image cannot be loaded (D24). -/
  exitLoad : Nat
deriving DecidableEq, Repr

/-- The four constraints on the exit statuses of R170: EXIT_HALT is the host's success status, EXIT_USAGE and
EXIT_LOAD differ, and all three error statuses are nonzero. DEDUCED (log 21), unsafe: the success status is 0. -/
def Config.exitsOk (c : Config) : Bool :=
  c.exitHalt == 0 && c.exitUsage != c.exitLoad && c.exitUsage != 0 && c.exitLoad != 0 && c.exitFault != 0

/-- FREE VALUE (R129, D10): the host's answer to the n-th keyboard availability check, where the
state's own list of answers does not give it. It has no body: nothing can be proved of it. -/
opaque Config.freeKbdAvail : Nat → Bool

end Sys2Proof
end

