-- ==== Sys2Proof/Machine/Params.lean ====
section
/-! DEFINITION. The values the named parameters have at reset: the spec's defaults (00_scope R5) where it gives
one, else the model's choice. No statement rests on them. -/

namespace Sys2Proof.Machine

/-- PC_START (R5, 70_reset R161). -/
def pcStart : Word := 0x3000#16

/-- PRESUMED (log 4), unsafe: the spec's default KBSR_ADDR, from the LC-3 (D7). -/
def defaultKbsrAddr : Word := 0xFE00#16

/-- PRESUMED (log 4), unsafe: the spec's default KBDR_ADDR, from the LC-3 (D7). -/
def defaultKbdrAddr : Word := 0xFE02#16

/-- PRESUMED (log 5), unsafe: the spec's default IN_PROMPT, the characters of "Enter a character: " (D17). -/
def defaultInPrompt : List Byte :=
  [0x45#8, 0x6E#8, 0x74#8, 0x65#8, 0x72#8, 0x20#8, 0x61#8, 0x20#8, 0x63#8, 0x68#8, 0x61#8, 0x72#8,
   0x61#8, 0x63#8, 0x74#8, 0x65#8, 0x72#8, 0x3A#8, 0x20#8]

/-- DESIGN CHOICE of the spec (log 6), unsafe: HALT prints nothing by default (D18). -/
def defaultHaltMessage : List Byte := []

/-- DESIGN CHOICE of the spec (log 7), unsafe: JSRR writes the link first by default (D19). -/
def defaultJsrrLinkFirst : Bool := true

/-- The configuration at reset. DESIGN CHOICE (log 8), unsafe: the four exit statuses, which the spec
leaves open (D24). -/
def defaultConfig : Config where
  kbsrAddr := defaultKbsrAddr
  kbdrAddr := defaultKbdrAddr
  inPrompt := defaultInPrompt
  haltMessage := defaultHaltMessage
  jsrrLinkFirst := defaultJsrrLinkFirst
  exitHalt := 0
  exitFault := 1
  exitUsage := 2
  exitLoad := 3

end Sys2Proof.Machine
end

