-- ==== Sys2Proof/Machine/State.lean ====
section
/-! DEFINITION. The state of the core (10_state R20 to R36), the reasons a step can stop, and reset. -/

namespace Sys2Proof.Machine

/-- The condition-flag register's three values (R24). -/
inductive Cond where
  | positive | zero | negative
deriving DecidableEq, Repr

/-- The two synchronous exceptions with the value each records (60_exceptions R140). -/
inductive Cause where
  /-- The opcode value with no handler. -/
  | decodeError (op : BitVec 4)
  /-- The trap vector with no service routine. -/
  | trapError (vec : BitVec 8)
deriving DecidableEq, Repr

/-- The run status (R31). `faulted` records the cause and the fetch PC (R140). -/
inductive RunStatus where
  | running
  | halted
  | faulted (cause : Cause) (fpc : Word)
deriving DecidableEq, Repr

/-- One memory cell that is not at its reset value: its word address and its word. DESIGN CHOICE (log 1),
safe: the machine's smallest addressable unit is the 16-bit word (20_memory R46), so a cell holds a word. -/
abbrev Cell := Nat × Word

/-- Memory M (R29): the cells that do not hold the reset value, addresses strictly rising. -/
abbrev Memory := List Cell

/-- The machine. -/
structure State where
  /-- R0 to R7 (R20). -/
  regs : Vector Word 8
  /-- The program counter (R22). -/
  pc : Word
  /-- COND (R24). -/
  cond : Cond
  /-- M (R29), the two keyboard cells included (R30). -/
  mem : Memory
  /-- The run status (R31). -/
  status : RunStatus
  /-- OUT_SEQ, oldest byte first (R32). -/
  outSeq : List Byte
  /-- INPUT: the characters not yet taken, the next one first (R34, 44_trap R130). -/
  input : List Byte
  /-- The host's answers to the coming availability checks, the next one first (R34, 44_trap R129). -/
  kbdDraws : List Bool
  /-- The MODEL's own counter of availability checks made: the index of the free value that answers a
  check when `kbdDraws` has run out (log 10). -/
  kbdPolls : Nat
  /-- The named parameters (00_scope R5, R6); no step changes them (log 3). -/
  cfg : Config
deriving DecidableEq, Repr

/-- Why a step does not exist. Every one of them is the spec's own "no step". -/
inductive Fault where
  /-- Raised by `step` when the run status is not Running (R31, 40_execution_cycle R80). Safe. -/
  | noStep (status : RunStatus)
  /-- Raised by GETC and IN (and TRAP x20, x23) when INPUT has no next character: the step never completes
  (R89, D11). It holds the state in which the core waits, IN's prompt already emitted (R131). Unsafe for
  claims about exhausted input only, as D11 says (log 11). -/
  | waitsForInput (waiting : State)
  /-- Raised by PUTS and PUTSP (and TRAP x22, x24) when no cell of memory is zero: the step never
  completes (R124, R126, U5). Safe (log 12). -/
  | stringNeverEnds
deriving DecidableEq, Repr

/-- No meaning for an instruction. -/
inductive Refusal where
  /-- Raised only in exec's arm of an instruction that has no meaning yet; no arm does so. Safe. -/
  | notModelled (mnemonic : String)
deriving DecidableEq, Repr

/-- How an instruction ends. -/
abbrev Result := Host.Outcome State Fault Refusal

/-- The machine before the first fetch with no image loaded (R33, 70_reset R160). DESIGN CHOICE (log 9),
unsafe: INPUT and the availability answers, which R33 leaves to the host, are empty here. -/
def State.reset : State where
  regs := #v[0, 0, 0, 0, 0, 0, 0, 0]
  pc := pcStart
  cond := .zero
  mem := []
  status := .running
  outSeq := []
  input := []
  kbdDraws := []
  kbdPolls := 0
  cfg := defaultConfig

end Sys2Proof.Machine
end

