-- ==== Sys2Proof/Machine/Ops.lean ====
section
/-! DEFINITION. The named operations over registers, memory, the I/O stub and the run status (00_scope R10;
20_memory R40 to R45; 44_trap R129; 60_exceptions R140). -/

namespace Sys2Proof.Machine

/-! ### General registers (10_state R20; 30_encoding R65) -/

/-- `x[r]`. -/
def State.reg (s : State) (r : Reg) : Word := s.regs[r.toNat]'r.isLt

/-- `x[r] <- v`. No register is hardwired (R20). -/
def State.setReg (s : State) (r : Reg) (v : Word) : State :=
  { s with regs := s.regs.set r.toNat v r.isLt }

/-- `pc <- target`. -/
def State.setPc (s : State) (target : Word) : State := { s with pc := target }

/-! ### Memory cells (10_state R29, R33) -/

/-- What an unlisted address reads as: memory is zero-initialized (R33). -/
def Memory.unlisted : Word := 0x0000#16

/-- The word at an address. -/
def Memory.read : Memory → Nat → Word
  | [], _ => Memory.unlisted
  | (k, w) :: m, a => if k = a then w else Memory.read m a

/-- Put a cell at its place by address. -/
def Memory.insertCell (c : Cell) : Memory → Memory
  | [] => [c]
  | d :: m => if c.1 < d.1 then c :: d :: m else d :: Memory.insertCell c m

/-- Take the cell of an address out. -/
def Memory.erase (a : Nat) : Memory → Memory
  | [] => []
  | c :: m => if c.1 = a then Memory.erase a m else c :: Memory.erase a m

/-- The memory after `M[a] <- v`, in the canonical form again. -/
def Memory.write (m : Memory) (a : Nat) (v : Word) : Memory :=
  if v = Memory.unlisted then m.erase a else (m.erase a).insertCell (a, v)

/-- The canonical form: addresses strictly rising and below 65536, no cell at the value an unlisted
address reads as. -/
abbrev Memory.wf (m : Memory) : Prop :=
  m.Pairwise (fun c d => c.1 < d.1) ∧ ∀ c ∈ m, c.1 < 65536 ∧ c.2 ≠ Memory.unlisted

/-- `CellRead(a)` (R45): the stored value, no side effect, even at KBSR_ADDR. -/
def cellRead (s : State) (a : Word) : Word := s.mem.read a.toNat

/-- `MemWrite(a, 1, v)` (R44): a plain store at any address. -/
def memWrite (s : State) (a v : Word) : State := { s with mem := s.mem.write a.toNat v }

/-! ### The I/O controller stub (44_trap R129, R130) -/

/-- The host's answer to the next availability check: the next listed one, else the free value. -/
def State.nextDraw (s : State) : Bool :=
  match s.kbdDraws with
  | d :: _ => d
  | [] => Config.freeKbdAvail s.kbdPolls

/-- `KbdAvail()`: true only when a next character exists; otherwise the host's answer. Each check uses up
one answer. -/
def kbdAvail (s : State) : Bool × State :=
  (match s.input with
    | [] => false
    | _ :: _ => s.nextDraw,
   { s with kbdDraws := s.kbdDraws.tail, kbdPolls := s.kbdPolls + 1 })

/-- `KbdTake()` and `KbdWait()`: take the next character of INPUT; none when there never is one. -/
def kbdTake (s : State) : Option (Byte × State) :=
  match s.input with
  | [] => none
  | c :: rest => some (c, { s with input := rest })

/-- `Out(b)` for each byte of a list in order (R32, R131). -/
def emit (s : State) (bs : List Byte) : State := { s with outSeq := s.outSeq ++ bs }

/-- `zext_16` of a character (00_scope R9, R130). -/
def zextByte (c : Byte) : Word := c.setWidth 16

/-- The status cell's value after a ready poll: bit 15 set, bits 14:0 zero (R43, D8). -/
def kbsrReady : Word := 0x8000#16

/-- `KbdPoll()` (R43). -/
def kbdPoll (s : State) : State :=
  match kbdAvail s with
  | (true, s1) =>
    match kbdTake s1 with
    | some (c, s2) => memWrite (memWrite s2 s.cfg.kbsrAddr kbsrReady) s.cfg.kbdrAddr (zextByte c)
    | none => memWrite s1 s.cfg.kbsrAddr 0x0000#16
  | (false, s1) => memWrite s1 s.cfg.kbsrAddr 0x0000#16

/-- The state a `MemRead(a, 1)` leaves: the poll's when `a` is KBSR_ADDR, else unchanged (R42, R49). -/
def afterRead (s : State) (a : Word) : State :=
  if a = s.cfg.kbsrAddr then kbdPoll s else s

/-- `MemRead(a, 1)` (R42): the cell's value after the poll, if any, and the state. -/
def memRead (s : State) (a : Word) : Word × State :=
  (cellRead (afterRead s a) a, afterRead s a)

/-! ### The string walk of PUTS and PUTSP (44_trap R124, R126) -/

/-- The cells from address `a` up to and not with the first zero cell, looking at no more than `n`
cells; addresses wrap (R41). -/
def stringWithin (m : Memory) : Nat → Word → Option (List Word)
  | 0, _ => none
  | n + 1, a =>
    if m.read a.toNat = 0x0000#16 then some []
    else (stringWithin m n (a + 1#16)).map (m.read a.toNat :: ·)

/-- The string at `a`; none when no cell of memory is zero, for the walk then never ends (U5). -/
def stringAt (s : State) (a : Word) : Option (List Word) := stringWithin s.mem 65536 a

/-- Bits 7:0 of a word (R46). -/
def lowByte (w : Word) : Byte := w.extractLsb' 0 8

/-- Bits 15:8 of a word (R46). -/
def highByte (w : Word) : Byte := w.extractLsb' 8 8

/-- What PUTSP emits for a non-zero cell: the low byte always, the high byte if it is not zero (R126). -/
def packedBytes (w : Word) : List Byte :=
  if highByte w = 0x00#8 then [lowByte w] else [lowByte w, highByte w]

/-! ### The end of a run -/

/-- Take an exception (R140, R141): the run status records the cause and the fetch PC, and nothing else
changes. A handler runs with PC = fpc + 1 (40_execution_cycle R82), so fpc is PC − 1 (log 14). There is no
return from it: the machine has no handler, no saved state and no return instruction (R142, R146, R147). -/
def raise (s : State) (cause : Cause) : State :=
  { s with status := .faulted cause (s.pc - 1#16) }

/-- `status <- Halted` (44_trap R127). -/
def haltRun (s : State) : State := { s with status := .halted }

/-! ### Fetch (40_execution_cycle R81, R82) -/

/-- The instruction word at the program counter and the state after the increment: `ir <- MemRead(fpc, 1)`,
`pc <- fpc + 1`. -/
def fetch (s : State) : Word × State :=
  ((memRead s s.pc).1, (memRead s s.pc).2.setPc (s.pc + 1#16))

end Sys2Proof.Machine
end

