-- ==== Sys2Proof/Machine/Flags.lean ====
section
/-! DEFINITION. The condition-flag register (10_state R24 to R26). -/

namespace Sys2Proof.Machine

/-- `flags(v)` (R25): bit 15 is the sign. -/
def flagsOf (v : Word) : Cond :=
  if v = 0x0000#16 then .zero else if v.getLsbD 15 then .negative else .positive

/-- `update_flags(r)` (R25, 40_execution_cycle R86): from the register's current value. -/
def updateFlags (s : State) (r : Reg) : State := { s with cond := flagsOf (s.reg r) }

/-- `x[DR] <- v` and then `cond <- flags(x[DR])`, in that order (R86). -/
def writeDest (s : State) (dr : Reg) (v : Word) : State := updateFlags (s.setReg dr v) dr

/-- BR's test (42_control R100): the mask bit that the flag value names is set. -/
def branchTaken (n z p : Bool) : Cond → Bool
  | .negative => n
  | .zero => z
  | .positive => p

end Sys2Proof.Machine
end

