-- ==== Sys2Proof/Machine/Operands.lean ====
section
/-! DEFINITION. Immediates and effective addresses (00_scope R9; 30_encoding R63, R64; 43_load_store R117). -/

namespace Sys2Proof.Machine

/-- `sext_n(f)` (00_scope R9): bits n to 15 repeat bit n − 1. -/
def sext16 {n : Nat} (f : BitVec n) : Word := f.signExtend 16

/-- PC-relative: `pc + sext_9(ir[8:0])`, with `pc` already fpc + 1 (R64, R85). -/
def pcRel9 (s : State) (off9 : BitVec 9) : Word := s.pc + sext16 off9

/-- PC-relative: `pc + sext_11(ir[10:0])` (R64, R102). -/
def pcRel11 (s : State) (off11 : BitVec 11) : Word := s.pc + sext16 off11

/-- Base plus offset: `x[BaseR] + sext_6(ir[5:0])` (R112, R116). -/
def baseOff (s : State) (baseR : Reg) (off6 : BitVec 6) : Word := s.reg baseR + sext16 off6

end Sys2Proof.Machine
end

