-- ==== Sys2Proof/Machine/Control.lean ====
section
/-! DEFINITION. BR, JMP, RET, JSR, JSRR (42_control R100 to R104). In each, `pc` is already fpc + 1. -/

namespace Sys2Proof.Machine

/-- R100. -/
def execBr (n z p : Bool) (off9 : BitVec 9) (s : State) : Result :=
  .next (if branchTaken n z p s.cond then s.setPc (pcRel9 s off9) else s)

/-- `pc <- x[BaseR]`, shared by JMP and RET (R101). -/
def jumpTo (baseR : Reg) (s : State) : State := s.setPc (s.reg baseR)

/-- R101. -/
def execJmp (baseR : Reg) (s : State) : Result := .next (jumpTo baseR s)

/-- R101, with BaseR = 7. -/
def execRet (s : State) : Result := .next (jumpTo 7#3 s)

/-- `x[7] <- pc` (R102, R103). -/
def link (s : State) : State := s.setReg 7#3 s.pc

/-- R102. -/
def execJsr (off11 : BitVec 11) (s : State) : Result :=
  .next ((link s).setPc (pcRel11 s off11))

/-- R103: the order of the link write and the read of BaseR is the parameter JSRR_LINK_FIRST (D19). -/
def execJsrr (baseR : Reg) (s : State) : Result :=
  .next ((link s).setPc (if s.cfg.jsrrLinkFirst then (link s).reg baseR else s.reg baseR))

end Sys2Proof.Machine
end

