-- ==== Sys2Proof/Machine/LoadStore.lean ====
section
/-! DEFINITION. LD, LDI, LDR, LEA, ST, STI, STR (43_load_store R110 to R117). Every read is MemRead. -/

namespace Sys2Proof.Machine

/-- `x[DR] <- MemRead(ea, 1); cond <- flags(x[DR])`. -/
def loadFrom (s : State) (dr : Reg) (ea : Word) : State :=
  writeDest (memRead s ea).2 dr (memRead s ea).1

/-- R110. -/
def execLd (dr : Reg) (off9 : BitVec 9) (s : State) : Result :=
  .next (loadFrom s dr (pcRel9 s off9))

/-- R111: the pointer is read first, and each read of KBSR_ADDR polls. -/
def execLdi (dr : Reg) (off9 : BitVec 9) (s : State) : Result :=
  .next (loadFrom (memRead s (pcRel9 s off9)).2 dr (memRead s (pcRel9 s off9)).1)

/-- R112. -/
def execLdr (dr baseR : Reg) (off6 : BitVec 6) (s : State) : Result :=
  .next (loadFrom s dr (baseOff s baseR off6))

/-- R113: no memory access. -/
def execLea (dr : Reg) (off9 : BitVec 9) (s : State) : Result :=
  .next (writeDest s dr (pcRel9 s off9))

/-- R114. -/
def execSt (sr : Reg) (off9 : BitVec 9) (s : State) : Result :=
  .next (memWrite s (pcRel9 s off9) (s.reg sr))

/-- R115: the pointer read is a full MemRead. -/
def execSti (sr : Reg) (off9 : BitVec 9) (s : State) : Result :=
  .next (memWrite (memRead s (pcRel9 s off9)).2 (memRead s (pcRel9 s off9)).1
    ((memRead s (pcRel9 s off9)).2.reg sr))

/-- R116. -/
def execStr (sr baseR : Reg) (off6 : BitVec 6) (s : State) : Result :=
  .next (memWrite s (baseOff s baseR off6) (s.reg sr))

end Sys2Proof.Machine
end

