-- ==== Sys2Proof/Machine/NoHandler.lean ====
section
/-! DEFINITION. The two opcode values with no handler (30_encoding R66, R69; 60_exceptions R140). -/

namespace Sys2Proof.Machine

/-- Opcode 0x8: `raise DecodeError(0x8, fpc)` (R140). -/
def execNoHandler8 (s : State) : Result := .next (raise s (.decodeError 0x8#4))

/-- Opcode 0xD: `raise DecodeError(0xD, fpc)` (R140). -/
def execNoHandlerD (s : State) : Result := .next (raise s (.decodeError 0xD#4))

end Sys2Proof.Machine
end

