-- ==== Sys2Proof/Machine/Operate.lean ====
section
/-! DEFINITION. ADD, AND, NOT (41_operate R90 to R95). -/

namespace Sys2Proof.Machine

/-- R90. -/
def execAddReg (dr sr1 sr2 : Reg) (s : State) : Result :=
  .next (writeDest s dr (s.reg sr1 + s.reg sr2))

/-- R91. -/
def execAddImm (dr sr1 : Reg) (imm5 : BitVec 5) (s : State) : Result :=
  .next (writeDest s dr (s.reg sr1 + sext16 imm5))

/-- R92. -/
def execAndReg (dr sr1 sr2 : Reg) (s : State) : Result :=
  .next (writeDest s dr (s.reg sr1 &&& s.reg sr2))

/-- R93. -/
def execAndImm (dr sr1 : Reg) (imm5 : BitVec 5) (s : State) : Result :=
  .next (writeDest s dr (s.reg sr1 &&& sext16 imm5))

/-- R94. -/
def execNot (dr sr : Reg) (s : State) : Result :=
  .next (writeDest s dr (~~~ s.reg sr))

end Sys2Proof.Machine
end

