-- ==== Sys2Proof/Syntax.lean ====
section
/-! DEFINITION. The instructions: one constructor per row of spec/opcode_table.json (30_encoding R66, R67, R72).
A constructor holds the row's operand fields as the bits of the word; unused bits (R68) have no place. -/

namespace Sys2Proof

inductive Instr where
  /-- ADD, register mode (R90). -/
  | addReg (dr sr1 sr2 : Reg)
  /-- ADD, immediate mode (R91). -/
  | addImm (dr sr1 : Reg) (imm5 : BitVec 5)
  /-- AND, register mode (R92). -/
  | andReg (dr sr1 sr2 : Reg)
  /-- AND, immediate mode (R93). -/
  | andImm (dr sr1 : Reg) (imm5 : BitVec 5)
  /-- NOT (R94). -/
  | not (dr sr : Reg)
  /-- BR (R100). -/
  | br (n z p : Bool) (off9 : BitVec 9)
  /-- JMP through a register other than R7 (R101). -/
  | jmp (baseR : Reg)
  /-- RET, the name of JMP R7 (R101, R72). -/
  | ret
  /-- JSR (R102). -/
  | jsr (off11 : BitVec 11)
  /-- JSRR (R103). -/
  | jsrr (baseR : Reg)
  /-- LD (R110). -/
  | ld (dr : Reg) (off9 : BitVec 9)
  /-- LDI (R111). -/
  | ldi (dr : Reg) (off9 : BitVec 9)
  /-- LDR (R112). -/
  | ldr (dr baseR : Reg) (off6 : BitVec 6)
  /-- LEA (R113). -/
  | lea (dr : Reg) (off9 : BitVec 9)
  /-- ST (R114). -/
  | st (sr : Reg) (off9 : BitVec 9)
  /-- STI (R115). -/
  | sti (sr : Reg) (off9 : BitVec 9)
  /-- STR (R116). -/
  | str (sr baseR : Reg) (off6 : BitVec 6)
  /-- TRAP with a vector that has no name of its own below (R120). Its meaning dispatches on every vector. -/
  | trap (vec : BitVec 8)
  /-- TRAP x20 (R122). -/
  | getc
  /-- TRAP x21 (R123). -/
  | out
  /-- TRAP x22 (R124). -/
  | puts
  /-- TRAP x23 (R125). -/
  | inChar
  /-- TRAP x24 (R126). -/
  | putsp
  /-- TRAP x25 (R127). -/
  | halt
  /-- The verdict NoHandler(0x8) (R67, R140). -/
  | noHandler8
  /-- The verdict NoHandler(0xD) (R67, R140). -/
  | noHandlerD
deriving DecidableEq, Repr

/-- The six built-in service routines (44_trap R133). -/
inductive TrapService where
  | getc | out | puts | inChar | putsp | halt
deriving DecidableEq, Repr

end Sys2Proof
end

