-- ==== Sys2Proof/WellFormed.lean ====
section
/-! DEFINITION. The instructions that a word decodes to. Every field value is legal (30_encoding R65, R69); the
two checks keep one instruction per word where the opcode table has a second name for it. -/

namespace Sys2Proof

/-- `jmp R7` is written `ret`; a TRAP of vector 0x20 to 0x25 is written by its service's name (R72). -/
def Instr.wf : Instr → Bool
  | .jmp baseR => baseR != 7#3
  | .trap vec => vec.toNat < 0x20 || 0x25 < vec.toNat
  | .addReg _ _ _ => true
  | .addImm _ _ _ => true
  | .andReg _ _ _ => true
  | .andImm _ _ _ => true
  | .not _ _ => true
  | .br _ _ _ _ => true
  | .ret => true
  | .jsr _ => true
  | .jsrr _ => true
  | .ld _ _ => true
  | .ldi _ _ => true
  | .ldr _ _ _ => true
  | .lea _ _ => true
  | .st _ _ => true
  | .sti _ _ => true
  | .str _ _ _ => true
  | .getc => true
  | .out => true
  | .puts => true
  | .inChar => true
  | .putsp => true
  | .halt => true
  | .noHandler8 => true
  | .noHandlerD => true

end Sys2Proof
end

