-- ==== Sys2Proof/Decode.lean ====
section
/-! DEFINITION. The decoder, total over the 65536 words (30_encoding R67), and after it the encoder (R62, R66). -/

namespace Sys2Proof

/-! ### Fields of the instruction word (R62) -/

/-- DR or SR, ir[11:9]. -/
def fieldR (ir : Word) : Reg := ir.extractLsb' 9 3
/-- SR1, SR or BaseR, ir[8:6]. -/
def fieldBase (ir : Word) : Reg := ir.extractLsb' 6 3
/-- SR2, ir[2:0]. -/
def fieldSr2 (ir : Word) : Reg := ir.extractLsb' 0 3
/-- imm5, ir[4:0]. -/
def fieldImm5 (ir : Word) : BitVec 5 := ir.extractLsb' 0 5
/-- offset6, ir[5:0]. -/
def fieldOff6 (ir : Word) : BitVec 6 := ir.extractLsb' 0 6
/-- PCoffset9, ir[8:0]. -/
def fieldOff9 (ir : Word) : BitVec 9 := ir.extractLsb' 0 9
/-- PCoffset11, ir[10:0]. -/
def fieldOff11 (ir : Word) : BitVec 11 := ir.extractLsb' 0 11
/-- trapvect8, ir[7:0]. -/
def fieldVec (ir : Word) : BitVec 8 := ir.extractLsb' 0 8

/-- The service routine of a trap vector, where it has one (44_trap R120, R133). -/
def trapService (vec : BitVec 8) : Option TrapService :=
  if vec = 0x20#8 then some .getc
  else if vec = 0x21#8 then some .out
  else if vec = 0x22#8 then some .puts
  else if vec = 0x23#8 then some .inChar
  else if vec = 0x24#8 then some .putsp
  else if vec = 0x25#8 then some .halt
  else none

/-- Opcode 0xF: the service's own name where it has one (R72), else TRAP. -/
def decodeTrap (vec : BitVec 8) : Instr :=
  match trapService vec with
  | some .getc => .getc
  | some .out => .out
  | some .puts => .puts
  | some .inChar => .inChar
  | some .putsp => .putsp
  | some .halt => .halt
  | none => .trap vec

/-- Opcode 0xC: RET is JMP with BaseR = 7 (R101). -/
def decodeJmp (baseR : Reg) : Instr :=
  if baseR = 7#3 then .ret else .jmp baseR

/-- R67, arm by arm in the order of its table; the four bits are ir[15:12]. -/
def decode (ir : Word) : Instr :=
  match ir.getLsbD 15, ir.getLsbD 14, ir.getLsbD 13, ir.getLsbD 12 with
  | false, false, false, false => .br (ir.getLsbD 11) (ir.getLsbD 10) (ir.getLsbD 9) (fieldOff9 ir)
  | false, false, false, true =>
    if ir.getLsbD 5 then .addImm (fieldR ir) (fieldBase ir) (fieldImm5 ir)
    else .addReg (fieldR ir) (fieldBase ir) (fieldSr2 ir)
  | false, false, true, false => .ld (fieldR ir) (fieldOff9 ir)
  | false, false, true, true => .st (fieldR ir) (fieldOff9 ir)
  | false, true, false, false =>
    if ir.getLsbD 11 then .jsr (fieldOff11 ir) else .jsrr (fieldBase ir)
  | false, true, false, true =>
    if ir.getLsbD 5 then .andImm (fieldR ir) (fieldBase ir) (fieldImm5 ir)
    else .andReg (fieldR ir) (fieldBase ir) (fieldSr2 ir)
  | false, true, true, false => .ldr (fieldR ir) (fieldBase ir) (fieldOff6 ir)
  | false, true, true, true => .str (fieldR ir) (fieldBase ir) (fieldOff6 ir)
  | true, false, false, false => .noHandler8
  | true, false, false, true => .not (fieldR ir) (fieldBase ir)
  | true, false, true, false => .ldi (fieldR ir) (fieldOff9 ir)
  | true, false, true, true => .sti (fieldR ir) (fieldOff9 ir)
  | true, true, false, false => decodeJmp (fieldBase ir)
  | true, true, false, true => .noHandlerD
  | true, true, true, false => .lea (fieldR ir) (fieldOff9 ir)
  | true, true, true, true => decodeTrap (fieldVec ir)

/-- The instruction of a word of the opcode table: every instruction is one 16-bit word (R60), and the
decoder refuses none (R67); only a longer word is no instruction of this machine. -/
def decodeTableWord (nbits w : Nat) : Option Instr :=
  if nbits ≤ 16 then some (decode (BitVec.ofNat 16 (w % 2 ^ nbits))) else none

/-! ### The encoder -/

/-- The word of an instruction, from the layouts of R62 and the opcodes of R66. Unused bits are written
as the spec's examples write them (R94, R96): ones in NOT's bits 5:0, zeros elsewhere. -/
def encode : Instr → Word
  | .br n z p off9 => 0x0#4 ++ BitVec.ofBool n ++ BitVec.ofBool z ++ BitVec.ofBool p ++ off9
  | .addReg dr sr1 sr2 => 0x1#4 ++ dr ++ sr1 ++ 0#1 ++ 0#2 ++ sr2
  | .addImm dr sr1 imm5 => 0x1#4 ++ dr ++ sr1 ++ 1#1 ++ imm5
  | .ld dr off9 => 0x2#4 ++ dr ++ off9
  | .st sr off9 => 0x3#4 ++ sr ++ off9
  | .jsr off11 => 0x4#4 ++ 1#1 ++ off11
  | .jsrr baseR => 0x4#4 ++ 0#1 ++ 0#2 ++ baseR ++ 0#6
  | .andReg dr sr1 sr2 => 0x5#4 ++ dr ++ sr1 ++ 0#1 ++ 0#2 ++ sr2
  | .andImm dr sr1 imm5 => 0x5#4 ++ dr ++ sr1 ++ 1#1 ++ imm5
  | .ldr dr baseR off6 => 0x6#4 ++ dr ++ baseR ++ off6
  | .str sr baseR off6 => 0x7#4 ++ sr ++ baseR ++ off6
  | .noHandler8 => 0x8#4 ++ 0#12
  | .not dr sr => 0x9#4 ++ dr ++ sr ++ 0x3F#6
  | .ldi dr off9 => 0xA#4 ++ dr ++ off9
  | .sti sr off9 => 0xB#4 ++ sr ++ off9
  | .jmp baseR => 0xC#4 ++ 0#3 ++ baseR ++ 0#6
  | .ret => 0xC#4 ++ 0#3 ++ 7#3 ++ 0#6
  | .noHandlerD => 0xD#4 ++ 0#12
  | .lea dr off9 => 0xE#4 ++ dr ++ off9
  | .trap vec => 0xF#4 ++ 0#4 ++ vec
  | .getc => 0xF#4 ++ 0#4 ++ 0x20#8
  | .out => 0xF#4 ++ 0#4 ++ 0x21#8
  | .puts => 0xF#4 ++ 0#4 ++ 0x22#8
  | .inChar => 0xF#4 ++ 0#4 ++ 0x23#8
  | .putsp => 0xF#4 ++ 0#4 ++ 0x24#8
  | .halt => 0xF#4 ++ 0#4 ++ 0x25#8

end Sys2Proof
end

