-- ==== Sys2Proof/Machine/Trap.lean ====
section
/-! DEFINITION. TRAP and its six service routines (44_trap R120 to R133). No routine writes R7, the PC or memory
(R121, R132). -/

namespace Sys2Proof.Machine

/-- `c <- KbdWait(); <emit echo>; x[0] <- zext_16(c); cond <- flags(x[0])`, the part GETC and IN share. With
no character to come the core waits for ever in the state it has (R89). -/
def readChar (s : State) (echo : Byte → List Byte) : Result :=
  match kbdTake s with
  | some (c, s1) => .next (writeDest (emit s1 (echo c)) 0#3 (zextByte c))
  | none => .fault (.waitsForInput s)

/-- Emit the string that R0 points at, each cell by `bytes`; the part PUTS and PUTSP share. -/
def emitString (s : State) (bytes : Word → List Byte) : Result :=
  match stringAt s (s.reg 0#3) with
  | some cells => .next (emit s (cells.flatMap bytes))
  | none => .fault .stringNeverEnds

/-- One service routine (R120). -/
def runService (s : State) : TrapService → Result
  | .getc => readChar s (fun _ => [])
  | .out => .next (emit s [lowByte (s.reg 0#3)])
  | .puts => emitString s (fun w => [lowByte w])
  | .inChar => readChar (emit s s.cfg.inPrompt) (fun c => [c])
  | .putsp => emitString s packedBytes
  | .halt => .next (haltRun (emit s s.cfg.haltMessage))

/-- TRAP (R120), for every vector; one with no routine raises TrapError (R128). -/
def execTrap (vec : BitVec 8) (s : State) : Result :=
  match trapService vec with
  | some service => runService s service
  | none => .next (raise s (.trapError vec))

/-- R122. -/
def execGetc (s : State) : Result := runService s .getc

/-- R123. -/
def execOut (s : State) : Result := runService s .out

/-- R124. -/
def execPuts (s : State) : Result := runService s .puts

/-- R125. -/
def execInChar (s : State) : Result := runService s .inChar

/-- R126. -/
def execPutsp (s : State) : Result := runService s .putsp

/-- R127. -/
def execHalt (s : State) : Result := runService s .halt

end Sys2Proof.Machine
end

