-- ==== Sys2Proof/Machine/Step.lean ====
section
/-! DEFINITION. One step (40_execution_cycle R80 to R84), and where the host's checks place an instruction. -/

namespace Sys2Proof.Machine

/-- R84: while Running, fetch, increment, decode, execute. There is no step otherwise (R80). -/
def step (s : State) : Host.Outcome State Fault Refusal :=
  match s.status with
  | .running => exec (decode (fetch s).1) (fetch s).2
  | .halted => .fault (.noStep .halted)
  | .faulted cause fpc => .fault (.noStep (.faulted cause fpc))

/-- `s` with an instruction word at the program counter, where `step` fetches it. A fetch from KBSR_ADDR
reads the poll's value instead (R81), and a run that has ended fetches nothing (R80); nothing placed in
memory changes either. How a program comes to run from reset: log 20. -/
def State.withFetchWord (s : State) (nbits w : Nat) : State :=
  memWrite s s.pc (BitVec.ofNat 16 (w % 2 ^ nbits))

end Sys2Proof.Machine
end

