-- ==== Sys2Proof/Machine/Loader.lean ====
section
/-! DEFINITION. The host's side of a run up to the core's boundary: the image format, the loader, the start and
the end (70_reset R160 to R164, R170). Opening files and reading a command line are outside (00_scope R4). -/

namespace Sys2Proof.Machine

/-- A program image (R162): the load origin and the words after it. -/
structure Image where
  origin : Word
  words : List Word
deriving DecidableEq, Repr

/-- Why a run does not start (R164). -/
inductive LaunchRefusal where
  /-- Fewer than one image is given. -/
  | usage
  /-- An image, numbered from 0 in command-line order, cannot be read or is refused. -/
  | load (index : Nat)
deriving DecidableEq, Repr

/-- Big-endian words (R162): the first byte of each pair is bits 15:8. None for an odd number of bytes. -/
def bigEndianWords : List Byte → Option (List Word)
  | [] => some []
  | [_] => none
  | hi :: lo :: rest => (bigEndianWords rest).map ((hi ++ lo) :: ·)

/-- Read an image file's bytes; none for an odd length, no origin word, or words past 0xFFFF (R164). -/
def parseImage (bytes : List Byte) : Option Image :=
  match bigEndianWords bytes with
  | none => none
  | some [] => none
  | some (o :: ws) => if o.toNat + ws.length ≤ 65536 then some ⟨o, ws⟩ else none

/-- Place words in consecutive cells (R163). -/
def placeWords (m : Memory) (a : Nat) : List Word → Memory
  | [] => m
  | w :: ws => placeWords (m.write a w) (a + 1) ws

/-- Load images in order; a later one overwrites an earlier one (R163). A file that cannot be opened or
read is `none`. `i` is the number of the first file. -/
def loadImages (m : Memory) (i : Nat) : List (Option (List Byte)) → Except LaunchRefusal Memory
  | [] => .ok m
  | file :: files =>
    match file.bind parseImage with
    | none => .error (.load i)
    | some img => loadImages (placeWords m img.origin.toNat img.words) (i + 1) files

/-- The state at the first fetch (R160): reset, the parameters, the loaded memory, and the host's
characters and availability answers. -/
def bootState (cfg : Config) (m : Memory) (input : List Byte) (draws : List Bool) : State :=
  { State.reset with cfg := cfg, mem := m, input := input, kbdDraws := draws }

/-- Start a run on image files (R160, R163, R164). PC is PC_START whatever the origins (R161). -/
def launch (cfg : Config) (files : List (Option (List Byte))) (input : List Byte) (draws : List Bool) :
    Except LaunchRefusal State :=
  match files with
  | [] => .error .usage
  | _ :: _ => (loadImages [] 0 files).map (fun m => bootState cfg m input draws)

/-- The process exit status of a run that has ended (R170); none while it runs. -/
def exitStatus (s : State) : Option Nat :=
  match s.status with
  | .running => none
  | .halted => some s.cfg.exitHalt
  | .faulted _ _ => some s.cfg.exitFault

/-- The process exit status of a refused start (R170). -/
def refusalStatus (cfg : Config) : LaunchRefusal → Nat
  | .usage => cfg.exitUsage
  | .load _ => cfg.exitLoad

/-- The value and the fetch PC that the host's diagnostic names after a fault (R140, R170). -/
def diagnostic (s : State) : Option (Nat × Word) :=
  match s.status with
  | .faulted (.decodeError op) fpc => some (op.toNat, fpc)
  | .faulted (.trapError vec) fpc => some (vec.toNat, fpc)
  | .running => none
  | .halted => none

end Sys2Proof.Machine
end

