-- ==== Sys2Proof/Safety.lean ====
section
/-! DEFINITION. The terms in which claims speak of a run: how it ends, what an instruction keeps, which registers,
flags and cells the spec says it writes or reads. -/

namespace Sys2Proof.Machine

/-! ### How a run stands -/

/-- The only successful end (40_execution_cycle R87). -/
def Succeeded (s : State) : Prop := s.status = .halted

/-- A fatal error ended the run (60_exceptions R140, R142). -/
def Failed (s : State) : Prop := ∃ cause fpc, s.status = .faulted cause fpc

/-- A safe run has no fatal error behind it. -/
def Safe (s : State) : Prop := ¬ Failed s

/-- The memory is in its one canonical form. -/
def CanonicalMemory (s : State) : Prop := s.mem.wf

/-! ### Frames -/

/-- Every general register but those listed is unchanged. -/
def RegsKeptBut (ds : List Reg) (s t : State) : Prop := ∀ r, r ∉ ds → t.reg r = s.reg r

/-- Every cell of memory but those listed reads as before. -/
def CellsKeptBut (as : List Word) (s t : State) : Prop :=
  ∀ a, a ∉ as → cellRead t a = cellRead s a

/-- Nothing was taken from the input side: the characters, the availability answers, the counter. -/
def InputKept (s t : State) : Prop :=
  t.input = s.input ∧ t.kbdDraws = s.kbdDraws ∧ t.kbdPolls = s.kbdPolls

/-- The run status, the output and the parameters are unchanged. -/
def RunKept (s t : State) : Prop :=
  t.status = s.status ∧ t.outSeq = s.outSeq ∧ t.cfg = s.cfg

/-- What an instruction that writes only `x[dr]` with `v` does to the registers: DR holds `v`, COND is
`flags(v)`, the other registers and the PC are unchanged, and so are the run status, the output and
the parameters. -/
def WritesDest (dr : Reg) (v : Word) (s t : State) : Prop :=
  t.reg dr = v ∧ t.cond = flagsOf v ∧ RegsKeptBut [dr] s t ∧ t.pc = s.pc ∧ RunKept s t

/-- No cell and nothing of the input side changed. -/
def CellsAndInputKept (s t : State) : Prop := CellsKeptBut [] s t ∧ InputKept s t

/-- Registers, PC, COND, run status, output and parameters are unchanged. -/
def CoreKept (s t : State) : Prop :=
  RegsKeptBut [] s t ∧ t.pc = s.pc ∧ t.cond = s.cond ∧ RunKept s t

/-- `t` is `s` with one cell written and nothing else changed. -/
def StoresWord (a v : Word) (s t : State) : Prop :=
  (∀ b, cellRead t b = if b = a then v else cellRead s b) ∧ CoreKept s t ∧ InputKept s t

/-! ### Who writes what -/

/-- The general registers an instruction may write (10_state R21). -/
def destRegs : Instr → List Reg
  | .addReg dr _ _ => [dr]
  | .addImm dr _ _ => [dr]
  | .andReg dr _ _ => [dr]
  | .andImm dr _ _ => [dr]
  | .not dr _ => [dr]
  | .br _ _ _ _ => []
  | .jmp _ => []
  | .ret => []
  | .jsr _ => [7#3]
  | .jsrr _ => [7#3]
  | .ld dr _ => [dr]
  | .ldi dr _ => [dr]
  | .ldr dr _ _ => [dr]
  | .lea dr _ => [dr]
  | .st _ _ => []
  | .sti _ _ => []
  | .str _ _ _ => []
  | .trap vec => if vec = 0x20#8 ∨ vec = 0x23#8 then [0#3] else []
  | .getc => [0#3]
  | .out => []
  | .puts => []
  | .inChar => [0#3]
  | .putsp => []
  | .halt => []
  | .noHandler8 => []
  | .noHandlerD => []

/-- The register an instruction sets COND from; none where it leaves COND unchanged (10_state R26). -/
def flagSource : Instr → Option Reg
  | .addReg dr _ _ => some dr
  | .addImm dr _ _ => some dr
  | .andReg dr _ _ => some dr
  | .andImm dr _ _ => some dr
  | .not dr _ => some dr
  | .br _ _ _ _ => none
  | .jmp _ => none
  | .ret => none
  | .jsr _ => none
  | .jsrr _ => none
  | .ld dr _ => some dr
  | .ldi dr _ => some dr
  | .ldr dr _ _ => some dr
  | .lea dr _ => some dr
  | .st _ _ => none
  | .sti _ _ => none
  | .str _ _ _ => none
  | .trap vec => if vec = 0x20#8 ∨ vec = 0x23#8 then some 0#3 else none
  | .getc => some 0#3
  | .out => none
  | .puts => none
  | .inChar => some 0#3
  | .putsp => none
  | .halt => none
  | .noHandler8 => none
  | .noHandlerD => none

/-- The addresses an instruction reads by MemRead, in order (20_memory R40, R48). -/
def readAddrs (s : State) : Instr → List Word
  | .ld _ off9 => [pcRel9 s off9]
  | .ldi _ off9 => [pcRel9 s off9, (memRead s (pcRel9 s off9)).1]
  | .ldr _ baseR off6 => [baseOff s baseR off6]
  | .sti _ off9 => [pcRel9 s off9]
  | .addReg _ _ _ => []
  | .addImm _ _ _ => []
  | .andReg _ _ _ => []
  | .andImm _ _ _ => []
  | .not _ _ => []
  | .br _ _ _ _ => []
  | .jmp _ => []
  | .ret => []
  | .jsr _ => []
  | .jsrr _ => []
  | .lea _ _ => []
  | .st _ _ => []
  | .str _ _ _ => []
  | .trap _ => []
  | .getc => []
  | .out => []
  | .puts => []
  | .inChar => []
  | .putsp => []
  | .halt => []
  | .noHandler8 => []
  | .noHandlerD => []

/-- The address an instruction stores to by MemWrite; none where it stores nothing (20_memory R40). -/
def storeAddr (s : State) : Instr → Option Word
  | .st _ off9 => some (pcRel9 s off9)
  | .sti _ off9 => some (memRead s (pcRel9 s off9)).1
  | .str _ baseR off6 => some (baseOff s baseR off6)
  | .addReg _ _ _ => none
  | .addImm _ _ _ => none
  | .andReg _ _ _ => none
  | .andImm _ _ _ => none
  | .not _ _ => none
  | .br _ _ _ _ => none
  | .jmp _ => none
  | .ret => none
  | .jsr _ => none
  | .jsrr _ => none
  | .ld _ _ => none
  | .ldi _ _ => none
  | .ldr _ _ _ => none
  | .lea _ _ => none
  | .trap _ => none
  | .getc => none
  | .out => none
  | .puts => none
  | .inChar => none
  | .putsp => none
  | .halt => none
  | .noHandler8 => none
  | .noHandlerD => none

/-- The instructions that run a service routine, with the routine (44_trap R120). -/
def serviceOf : Instr → Option TrapService
  | .trap vec => trapService vec
  | .getc => some .getc
  | .out => some .out
  | .puts => some .puts
  | .inChar => some .inChar
  | .putsp => some .putsp
  | .halt => some .halt
  | .addReg _ _ _ => none
  | .addImm _ _ _ => none
  | .andReg _ _ _ => none
  | .andImm _ _ _ => none
  | .not _ _ => none
  | .br _ _ _ _ => none
  | .jmp _ => none
  | .ret => none
  | .jsr _ => none
  | .jsrr _ => none
  | .ld _ _ => none
  | .ldi _ _ => none
  | .ldr _ _ _ => none
  | .lea _ _ => none
  | .st _ _ => none
  | .sti _ _ => none
  | .str _ _ _ => none
  | .noHandler8 => none
  | .noHandlerD => none

/-- The exception an instruction raises, if any (60_exceptions R140). -/
def causeOf : Instr → Option Cause
  | .noHandler8 => some (.decodeError 0x8#4)
  | .noHandlerD => some (.decodeError 0xD#4)
  | .trap vec => if vec.toNat < 0x20 ∨ 0x25 < vec.toNat then some (.trapError vec) else none
  | .addReg _ _ _ => none
  | .addImm _ _ _ => none
  | .andReg _ _ _ => none
  | .andImm _ _ _ => none
  | .not _ _ => none
  | .br _ _ _ _ => none
  | .jmp _ => none
  | .ret => none
  | .jsr _ => none
  | .jsrr _ => none
  | .ld _ _ => none
  | .ldi _ _ => none
  | .ldr _ _ _ => none
  | .lea _ _ => none
  | .st _ _ => none
  | .sti _ _ => none
  | .str _ _ _ => none
  | .getc => none
  | .out => none
  | .puts => none
  | .inChar => none
  | .putsp => none
  | .halt => none

/-- The bits of a word that its instruction depends on: all but the unused bits of 30_encoding R68 (and all
of a word with no handler but its opcode, R67). -/
def usedMask : Instr → Word
  | .addReg _ _ _ => 0xFFE7#16
  | .andReg _ _ _ => 0xFFE7#16
  | .not _ _ => 0xFFC0#16
  | .jmp _ => 0xF1C0#16
  | .ret => 0xF1C0#16
  | .jsrr _ => 0xF9C0#16
  | .trap _ => 0xF0FF#16
  | .getc => 0xF0FF#16
  | .out => 0xF0FF#16
  | .puts => 0xF0FF#16
  | .inChar => 0xF0FF#16
  | .putsp => 0xF0FF#16
  | .halt => 0xF0FF#16
  | .noHandler8 => 0xF000#16
  | .noHandlerD => 0xF000#16
  | .addImm _ _ _ => 0xFFFF#16
  | .andImm _ _ _ => 0xFFFF#16
  | .br _ _ _ _ => 0xFFFF#16
  | .jsr _ => 0xFFFF#16
  | .ld _ _ => 0xFFFF#16
  | .ldi _ _ => 0xFFFF#16
  | .ldr _ _ _ => 0xFFFF#16
  | .lea _ _ => 0xFFFF#16
  | .st _ _ => 0xFFFF#16
  | .sti _ _ => 0xFFFF#16
  | .str _ _ _ => 0xFFFF#16

/-- `s` with another input side: other characters, other availability answers, another counter. -/
def withInput (input : List Byte) (draws : List Bool) (polls : Nat) (s : State) : State :=
  { s with input := input, kbdDraws := draws, kbdPolls := polls }

end Sys2Proof.Machine
end

