-- ==== Sys2Proof/Certificates/Slice0/Obligations.lean ====
section
/-! DEFINITION. The statements for the provers. `exec i s` runs on the state after fetch and increment, so
`s.pc` is fpc + 1 there (40_execution_cycle R82). A statement over every state is a statement over every value
of the named parameters, which stand in `s.cfg` (00_scope R6). -/

open Sys2Proof Sys2Proof.Machine

/-! ### Arithmetic and flags -/

/-- R9. For n in 5, 6, 9, 11: bits n to 15 repeat bit n − 1 and the lower bits are the field's, so the value is
the field's two's-complement value; zero extension sets the bits above the field to 0. -/
def Obligations.SignAndZeroExtensionAreExact : Prop :=
  (∀ n ∈ [5, 6, 9, 11], ∀ f : BitVec n,
    (∀ i < 16, (sext16 f).getLsbD i = if i < n then f.getLsbD i else f.getLsbD (n - 1)) ∧
    (sext16 f).toInt = f.toInt) ∧
  (∀ c : Byte, (∀ i < 16, (zextByte c).getLsbD i = if i < 8 then c.getLsbD i else false) ∧
    (zextByte c).toNat = c.toNat)

/-- R25. ZERO if and only if the value is 0, NEGATIVE if and only if bit 15 is set (its two's-complement value
is below 0), POSITIVE if and only if it is 0x0001 to 0x7FFF; `update_flags(r)` sets COND from the register's
current value and changes nothing else. -/
def Obligations.FlagsFollowTheSignOfTheValue : Prop :=
  (∀ v : Word, (flagsOf v = .zero ↔ v.toNat = 0) ∧ (flagsOf v = .negative ↔ v.toInt < 0) ∧
    (flagsOf v = .positive ↔ 1 ≤ v.toNat ∧ v.toNat ≤ 0x7FFF)) ∧
  (∀ s r, (updateFlags s r).cond = flagsOf (s.reg r) ∧ RegsKeptBut [] s (updateFlags s r) ∧
    (updateFlags s r).pc = s.pc ∧ RunKept s (updateFlags s r) ∧
    CellsAndInputKept s (updateFlags s r)) ∧
  (∀ (s : State) (r : Reg) (v : Word), (updateFlags (s.setReg r v) r).cond = flagsOf v)

/-! ### Operate instructions -/

/-- R90, R91. The effect of ADD in both modes: the sum modulo 65536 of two source registers, or of a source and
the sign-extended immediate, goes to DR, COND is set from it, and everything else is unchanged; it always
completes, also where DR is a source. -/
def Obligations.AddWritesTheSumAndItsFlags : Prop :=
  (∀ dr sr1 sr2 s, ∃ t, exec (.addReg dr sr1 sr2) s = .next t ∧
    WritesDest dr (BitVec.ofNat 16 ((s.reg sr1).toNat + (s.reg sr2).toNat)) s t ∧
    CellsAndInputKept s t) ∧
  (∀ dr sr1 imm5 s, ∃ t, exec (.addImm dr sr1 imm5) s = .next t ∧
    WritesDest dr (BitVec.ofNat 16 ((s.reg sr1).toNat + (sext16 imm5).toNat)) s t ∧
    CellsAndInputKept s t)

/-- R92, R93. The effect of AND in both modes, bit by bit. -/
def Obligations.AndWritesTheConjunctionAndItsFlags : Prop :=
  (∀ dr sr1 sr2 s, ∃ t v, exec (.andReg dr sr1 sr2) s = .next t ∧
    (∀ i < 16, v.getLsbD i = ((s.reg sr1).getLsbD i && (s.reg sr2).getLsbD i)) ∧
    WritesDest dr v s t ∧ CellsAndInputKept s t) ∧
  (∀ dr sr1 imm5 s, ∃ t v, exec (.andImm dr sr1 imm5) s = .next t ∧
    (∀ i < 16, v.getLsbD i = ((s.reg sr1).getLsbD i && (sext16 imm5).getLsbD i)) ∧
    WritesDest dr v s t ∧ CellsAndInputKept s t)

/-- R94. The effect of NOT, bit by bit. -/
def Obligations.NotWritesTheComplementAndItsFlags : Prop :=
  ∀ dr sr s, ∃ t v, exec (.not dr sr) s = .next t ∧
    (∀ i < 16, v.getLsbD i = !(s.reg sr).getLsbD i) ∧
    WritesDest dr v s t ∧ CellsAndInputKept s t

/-- R95 (derived there). NOT, ADD #1 and ADD through a scratch register other than the minuend's subtract modulo
65536, and COND is that of the difference. -/
def Obligations.NotAddOneAddSubtracts : Prop :=
  ∀ (dr d sr1 sr2 : Reg) (s : State), d ≠ sr1 → ∃ t u v,
    exec (.not d sr2) s = .next t ∧ exec (.addImm d d 1#5) t = .next u ∧
    exec (.addReg dr sr1 d) u = .next v ∧
    v.reg dr = s.reg sr1 - s.reg sr2 ∧ v.cond = flagsOf (s.reg sr1 - s.reg sr2)

/-! ### Control transfer -/

/-- R100. The effect of BR: with n for NEGATIVE, z for ZERO and p for POSITIVE, a taken branch adds the
sign-extended offset to the incremented PC; otherwise, and in everything else, the state is unchanged. -/
def Obligations.BranchTestsTheMaskAgainstCond : Prop :=
  ∀ (n z p : Bool) (off9 : BitVec 9) (s : State), ∃ t, exec (.br n z p off9) s = .next t ∧
    (((n = true ∧ s.cond = .negative) ∨ (z = true ∧ s.cond = .zero) ∨
        (p = true ∧ s.cond = .positive)) → t = { s with pc := s.pc + sext16 off9 }) ∧
    (¬ ((n = true ∧ s.cond = .negative) ∨ (z = true ∧ s.cond = .zero) ∨
        (p = true ∧ s.cond = .positive)) → t = s)

/-- R101. JMP sets the PC to x[BaseR], for every BaseR; RET is that with R7; nothing else changes. -/
def Obligations.JumpSetsThePcFromTheBase : Prop :=
  (∀ baseR s, exec (.jmp baseR) s = .next { s with pc := s.reg baseR }) ∧
  (∀ s, exec .ret s = .next { s with pc := s.reg 7#3 })

/-- R102. JSR leaves fpc + 1 in R7 and adds the sign-extended offset to the incremented PC; nothing else
changes. -/
def Obligations.JsrLinksAndJumpsRelative : Prop :=
  ∀ off11 s, ∃ t, exec (.jsr off11) s = .next t ∧ t.reg 7#3 = s.pc ∧
    t.pc = s.pc + sext16 off11 ∧ RegsKeptBut [7#3] s t ∧ t.cond = s.cond ∧ RunKept s t ∧
    CellsAndInputKept s t

/-- R103. JSRR leaves fpc + 1 in R7 and jumps to x[BaseR]; for BaseR = 7 the target is the new R7 if
JSRR_LINK_FIRST, else the old one; for every other BaseR the parameter makes no difference. -/
def Obligations.JsrrLinksAndJumpsThroughTheBase : Prop :=
  ∀ baseR s, ∃ t, exec (.jsrr baseR) s = .next t ∧ t.reg 7#3 = s.pc ∧
    (baseR ≠ 7#3 → t.pc = s.reg baseR) ∧
    (baseR = 7#3 → s.cfg.jsrrLinkFirst = true → t.pc = s.pc) ∧
    (baseR = 7#3 → s.cfg.jsrrLinkFirst = false → t.pc = s.reg 7#3) ∧
    RegsKeptBut [7#3] s t ∧ t.cond = s.cond ∧ RunKept s t ∧ CellsAndInputKept s t

/-- 42_control R101, R102, R103 together: RET right after a call returns to the instruction after the call. -/
def Obligations.ReturnResumesAfterTheCall : Prop :=
  (∀ off11 s, ∃ t u, exec (.jsr off11) s = .next t ∧ exec .ret t = .next u ∧ u.pc = s.pc) ∧
  (∀ baseR s, ∃ t u, exec (.jsrr baseR) s = .next t ∧ exec .ret t = .next u ∧ u.pc = s.pc)

/-! ### Loads, stores, LEA -/

/-- R110. LD: DR holds what MemRead(pc + sext_9(off), 1) gives, COND is set from it, and cells and input side are
as that read leaves them; where the address is not KBSR_ADDR that is the stored cell, with no side effect. -/
def Obligations.LdLoadsPcRelative : Prop :=
  ∀ dr off9 s, ∃ t, exec (.ld dr off9) s = .next t ∧
    WritesDest dr (memRead s (s.pc + sext16 off9)).1 s t ∧
    CellsAndInputKept (memRead s (s.pc + sext16 off9)).2 t ∧
    (s.pc + sext16 off9 ≠ s.cfg.kbsrAddr →
      t.reg dr = cellRead s (s.pc + sext16 off9) ∧ CellsAndInputKept s t)

/-- R111. LDI: two MemReads, the pointer at pc + sext_9(off) and then the data at the pointer; DR is written after
both; where neither address is KBSR_ADDR the value is the cell that the pointer cell names. -/
def Obligations.LdiLoadsThroughThePointer : Prop :=
  ∀ dr off9 s, ∃ t, exec (.ldi dr off9) s = .next t ∧
    (let r1 := memRead s (s.pc + sext16 off9)
     let r2 := memRead r1.2 r1.1
     WritesDest dr r2.1 s t ∧ CellsAndInputKept r2.2 t) ∧
    (s.pc + sext16 off9 ≠ s.cfg.kbsrAddr →
      cellRead s (s.pc + sext16 off9) ≠ s.cfg.kbsrAddr →
      t.reg dr = cellRead s (cellRead s (s.pc + sext16 off9)) ∧ CellsAndInputKept s t)

/-- R112. LDR: the address is x[BaseR] + sext_6(off) with the old BaseR, also where DR = BaseR. -/
def Obligations.LdrLoadsBasePlusOffset : Prop :=
  ∀ dr baseR off6 s, ∃ t, exec (.ldr dr baseR off6) s = .next t ∧
    WritesDest dr (memRead s (s.reg baseR + sext16 off6)).1 s t ∧
    CellsAndInputKept (memRead s (s.reg baseR + sext16 off6)).2 t ∧
    (s.reg baseR + sext16 off6 ≠ s.cfg.kbsrAddr →
      t.reg dr = cellRead s (s.reg baseR + sext16 off6) ∧ CellsAndInputKept s t)

/-- R113. LEA: the address itself goes to DR and sets COND; memory is not read, so nothing is polled. -/
def Obligations.LeaWritesTheAddressAndItsFlags : Prop :=
  ∀ dr off9 s, ∃ t, exec (.lea dr off9) s = .next t ∧
    WritesDest dr (BitVec.ofNat 16 (s.pc.toNat + (sext16 off9).toNat)) s t ∧ CellsAndInputKept s t

/-- R114, R116. ST stores x[SR] at pc + sext_9(off) and STR at x[BaseR] + sext_6(off), the keyboard cells
included; every other cell, every register, COND, the PC and the input side are unchanged. -/
def Obligations.StAndStrStoreOneCell : Prop :=
  (∀ sr off9 s, ∃ t, exec (.st sr off9) s = .next t ∧
    StoresWord (s.pc + sext16 off9) (s.reg sr) s t) ∧
  (∀ sr baseR off6 s, ∃ t, exec (.str sr baseR off6) s = .next t ∧
    StoresWord (s.reg baseR + sext16 off6) (s.reg sr) s t)

/-- R115. STI: MemRead of the pointer at pc + sext_9(off), then x[SR] is stored at the pointer; where the pointer's
address is not KBSR_ADDR the store is at the address the pointer cell holds and nothing else changes. -/
def Obligations.StiStoresThroughThePointer : Prop :=
  ∀ sr off9 s, ∃ t, exec (.sti sr off9) s = .next t ∧
    StoresWord (memRead s (s.pc + sext16 off9)).1 (s.reg sr)
      (memRead s (s.pc + sext16 off9)).2 t ∧ CoreKept s t ∧
    (s.pc + sext16 off9 ≠ s.cfg.kbsrAddr →
      StoresWord (cellRead s (s.pc + sext16 off9)) (s.reg sr) s t)

/-! ### TRAP and the service routines -/

/-- R120, R128. TRAP runs the routine of its vector; a vector outside 0x20 to 0x25 makes the run status Faulted with
the vector and the fetch PC, and nothing else changes. The Faulted value's form is the spec's decision D23, and
that it is a next state the model's (log 13). -/
def Obligations.TrapDispatchesOnTheVector : Prop :=
  (∀ s, exec (.trap 0x20#8) s = exec .getc s ∧ exec (.trap 0x21#8) s = exec .out s ∧
    exec (.trap 0x22#8) s = exec .puts s ∧ exec (.trap 0x23#8) s = exec .inChar s ∧
    exec (.trap 0x24#8) s = exec .putsp s ∧ exec (.trap 0x25#8) s = exec .halt s) ∧
  (∀ vec s, (vec.toNat < 0x20 ∨ 0x25 < vec.toNat) → ∃ t, exec (.trap vec) s = .next t ∧
    t.status = .faulted (.trapError vec) (s.pc - 1#16) ∧
    t = { s with status := .faulted (.trapError vec) (s.pc - 1#16) })

/-- 44_trap R120, R122 to R127, R133. TRAP with a vector that has a routine completes: always for OUT and HALT, for
GETC and IN when INPUT has a character, for PUTS and PUTSP when some cell of memory is zero. -/
def Obligations.TrapCompletesOnEveryServiceVector : Prop :=
  ∀ (vec : BitVec 8) (s : State), 0x20 ≤ vec.toNat → vec.toNat ≤ 0x25 →
    (vec = 0x20#8 ∨ vec = 0x23#8 → s.input ≠ []) →
    (vec = 0x22#8 ∨ vec = 0x24#8 → ∃ a, cellRead s a = 0x0000#16) →
    ∃ t, exec (.trap vec) s = .next t ∧ t.pc = s.pc

/-- R122. GETC takes the next character of INPUT into R0, zero-extended, and sets COND: ZERO for the character 0,
else POSITIVE; no echo, no memory access. With INPUT exhausted it has no step: the model's form of that is the
fault `waitsForInput` (D11, log 11). -/
def Obligations.GetcTakesOneCharacterWithoutEcho : Prop :=
  (∀ s c rest, s.input = c :: rest → ∃ t, exec .getc s = .next t ∧ t.input = rest ∧
    t.reg 0#3 = BitVec.ofNat 16 c.toNat ∧
    t.cond = (if c = 0x00#8 then .zero else .positive) ∧
    RegsKeptBut [0#3] s t ∧ t.pc = s.pc ∧ RunKept s t ∧ CellsKeptBut [] s t ∧
    t.kbdDraws = s.kbdDraws ∧ t.kbdPolls = s.kbdPolls) ∧
  (∀ s, s.input = [] → exec .getc s = .fault (.waitsForInput s))

/-- R125, R131. IN emits IN_PROMPT, takes the next character, echoes it, and sets R0 and COND as GETC does. With INPUT
exhausted it waits with the prompt already in OUT_SEQ and nothing else changed; the form of the wait is the
model's (D11, log 11). -/
def Obligations.InPromptsTakesAndEchoesOneCharacter : Prop :=
  (∀ s c rest, s.input = c :: rest → ∃ t, exec .inChar s = .next t ∧ t.input = rest ∧
    t.outSeq = s.outSeq ++ s.cfg.inPrompt ++ [c] ∧
    t.reg 0#3 = BitVec.ofNat 16 c.toNat ∧
    t.cond = (if c = 0x00#8 then .zero else .positive) ∧
    RegsKeptBut [0#3] s t ∧ t.pc = s.pc ∧ t.status = s.status ∧ t.cfg = s.cfg ∧
    CellsKeptBut [] s t ∧ t.kbdDraws = s.kbdDraws ∧ t.kbdPolls = s.kbdPolls) ∧
  (∀ s, s.input = [] → exec .inChar s =
    .fault (.waitsForInput { s with outSeq := s.outSeq ++ s.cfg.inPrompt }))

/-- R123. OUT emits bits 7:0 of R0 (bits 15:8 ignored: the spec's decision D16) and changes nothing else. -/
def Obligations.OutEmitsTheLowByteOfR0 : Prop :=
  ∀ s, ∃ t b, exec .out s = .next t ∧ b.toNat = (s.reg 0#3).toNat % 256 ∧
    t = { s with outSeq := s.outSeq ++ [b] }

/-- R124. PUTS: where the first zero cell at or after x[0], addresses wrapping, is `n` cells on, the low byte of each
of the `n` cells before it is emitted in order and nothing else changes. Plain cell reads and bits 7:0 are the
spec's decisions D13 and D14 (log 18). -/
def Obligations.PutsEmitsTheCellsBeforeTheFirstZero : Prop :=
  ∀ (s : State) (n : Nat), n < 65536 →
    cellRead s (s.reg 0#3 + BitVec.ofNat 16 n) = 0x0000#16 →
    (∀ k < n, cellRead s (s.reg 0#3 + BitVec.ofNat 16 k) ≠ 0x0000#16) →
    exec .puts s = .next { s with outSeq := s.outSeq ++ (List.range n).map (fun k =>
      BitVec.ofNat 8 (cellRead s (s.reg 0#3 + BitVec.ofNat 16 k)).toNat) }

/-- R126. PUTSP: as PUTS, but each cell gives its low byte (also when zero: D15, log 18) and then its high byte if
that is not zero. -/
def Obligations.PutspEmitsPackedPairsBeforeTheFirstZero : Prop :=
  ∀ (s : State) (n : Nat), n < 65536 →
    cellRead s (s.reg 0#3 + BitVec.ofNat 16 n) = 0x0000#16 →
    (∀ k < n, cellRead s (s.reg 0#3 + BitVec.ofNat 16 k) ≠ 0x0000#16) →
    exec .putsp s = .next { s with outSeq := s.outSeq ++ (List.range n).flatMap (fun k =>
      let w := (cellRead s (s.reg 0#3 + BitVec.ofNat 16 k)).toNat
      BitVec.ofNat 8 w :: (if w / 256 = 0 then [] else [BitVec.ofNat 8 (w / 256)])) }

/-- 44_trap R124, R126; U5. PUTS and PUTSP complete if and only if some cell of memory is zero; otherwise the step
never completes, in the model the fault `stringNeverEnds` (log 12). -/
def Obligations.StringRoutinesCompleteIffAZeroCellExists : Prop :=
  ∀ s, ((∃ a, cellRead s a = 0x0000#16) →
      (∃ t, exec .puts s = .next t) ∧ (∃ t, exec .putsp s = .next t)) ∧
    ((∀ a, cellRead s a ≠ 0x0000#16) →
      exec .puts s = .fault .stringNeverEnds ∧ exec .putsp s = .fault .stringNeverEnds)

/-- R127. HALT emits HALT_MESSAGE and makes the run status Halted; registers, flags, memory, the input side and the PC
(left at fpc + 1) are unchanged; no step follows, and the run is a success. -/
def Obligations.HaltEndsTheRunWithSuccess : Prop :=
  ∀ s, ∃ t, exec .halt s = .next t ∧ Succeeded t ∧ t.outSeq = s.outSeq ++ s.cfg.haltMessage ∧
    RegsKeptBut [] s t ∧ t.cond = s.cond ∧ t.pc = s.pc ∧ t.cfg = s.cfg ∧
    CellsAndInputKept s t ∧ step t = .fault (.noStep .halted) ∧
    exitStatus t = some s.cfg.exitHalt

/-- 44_trap R121, R132 (derived there). Every service routine that completes touches only R0, COND, INPUT, OUT_SEQ
and the run status: R1 to R7, the PC and every cell are unchanged, and no availability answer is used. -/
def Obligations.ServiceRoutinesTouchOnlyTheirState : Prop :=
  ∀ (i : Instr) (v : TrapService) (s t : State), serviceOf i = some v → exec i s = .next t →
    RegsKeptBut [0#3] s t ∧ t.pc = s.pc ∧ CellsKeptBut [] s t ∧ t.kbdDraws = s.kbdDraws ∧
    t.kbdPolls = s.kbdPolls ∧ t.cfg = s.cfg ∧
    (v ≠ .getc → v ≠ .inChar → t.reg 0#3 = s.reg 0#3 ∧ t.cond = s.cond ∧ t.input = s.input) ∧
    (v = .getc → t.outSeq = s.outSeq) ∧ (v ≠ .halt → t.status = s.status)

/-! ### Exceptions and the end of a run -/

/-- 30_encoding R69; 60_exceptions R140. A word of opcode 0x8 or 0xD, and no other, decodes to an instruction with no
handler; running it makes the run status Faulted with the opcode and the fetch PC and changes nothing else. The
Faulted value's form is the spec's decision D23 and the two opcodes its decision D4. -/
def Obligations.OpcodesWithoutHandlerRaiseDecodeError : Prop :=
  (∀ w : Word, decode w = .noHandler8 ↔ 0x8000 ≤ w.toNat ∧ w.toNat ≤ 0x8FFF) ∧
  (∀ w : Word, decode w = .noHandlerD ↔ 0xD000 ≤ w.toNat ∧ w.toNat ≤ 0xDFFF) ∧
  (∀ s, exec .noHandler8 s =
    .next { s with status := .faulted (.decodeError 0x8#4) (s.pc - 1#16) }) ∧
  (∀ s, exec .noHandlerD s =
    .next { s with status := .faulted (.decodeError 0xD#4) (s.pc - 1#16) })

/-- R141. A step whose instruction raises an exception leaves PC = fpc + 1, the registers, COND, the output and the
parameters as before, the record with fpc and not the incremented PC, and memory and the input side as before
unless fpc = KBSR_ADDR, where they are as the fetch's poll leaves them; after it no step exists. -/
def Obligations.FaultsArePrecise : Prop :=
  ∀ (s : State) (c : Cause), s.status = .running → causeOf (decode (fetch s).1) = some c →
    ∃ t, step s = .next t ∧ t.status = .faulted c s.pc ∧ t.pc = s.pc + 1#16 ∧
      RegsKeptBut [] s t ∧ t.cond = s.cond ∧ t.outSeq = s.outSeq ∧ t.cfg = s.cfg ∧
      (s.pc ≠ s.cfg.kbsrAddr → CellsAndInputKept s t) ∧
      (s.pc = s.cfg.kbsrAddr → CellsAndInputKept (kbdPoll s) t) ∧
      step t = .fault (.noStep t.status)

/-- 40_execution_cycle R80; 60_exceptions R142; 10_state R31. A run that has ended takes no step, for any number of
steps asked for; a run that is Running is never stopped for that reason. The fault `noStep` is the model's form
of "no step" (log 13). -/
def Obligations.OnlyARunningMachineSteps : Prop :=
  (∀ s : State, s.status ≠ .running →
    step s = .fault (.noStep s.status) ∧
      ∀ k, Sys2Proof.core.run (k + 1) s = .fault (Fault.noStep s.status)) ∧
  (∀ (s : State) (st : RunStatus), s.status = .running → step s ≠ .fault (.noStep st))

/-- 40_execution_cycle R87 (with D22); 60_exceptions R140, R143. A step ends the run exactly when its instruction is
HALT, with success, or raises one of the two exceptions, with the fetch PC in the record; otherwise the status
stays Running. -/
def Obligations.RunsEndOnlyByHaltOrException : Prop :=
  ∀ s t : State, step s = .next t →
    s.status = .running ∧
    (Succeeded t ↔ serviceOf (decode (fetch s).1) = some .halt) ∧
    (∀ c fpc, t.status = .faulted c fpc ↔
      causeOf (decode (fetch s).1) = some c ∧ fpc = s.pc) ∧
    (t.status = .running ↔ serviceOf (decode (fetch s).1) ≠ some .halt ∧
      causeOf (decode (fetch s).1) = none)

/-- 40_execution_cycle R88, R89; 60_exceptions R143; U3, U5. No instruction is refused, and the only ones that do not
complete are GETC and IN with INPUT exhausted and PUTS and PUTSP with no zero cell in memory. -/
def Obligations.EveryInstructionCompletesButTheNamedWaits : Prop :=
  ∀ (i : Instr) (s : State),
    (¬ ∃ t, exec i s = .next t) ↔
      ((serviceOf i = some .getc ∨ serviceOf i = some .inChar) ∧ s.input = []) ∨
      ((serviceOf i = some .puts ∨ serviceOf i = some .putsp) ∧
        ∀ a, cellRead s a ≠ 0x0000#16)

/-- 70_reset R170 (D24). After a step that ends the run, the host's exit status is EXIT_HALT for success and EXIT_FAULT
for a fault, whose diagnostic names the offending value and the fetch PC. Where the exit statuses meet R170's
constraints, success and no other state exits with the success status, a fault and no other with a nonzero one; that
the success status is 0 is the model's reading (log 21). -/
def Obligations.ExitStatusAndDiagnosticFollowTheEnd : Prop :=
  ∀ s t : State, step s = .next t →
    (Succeeded t → exitStatus t = some s.cfg.exitHalt ∧ diagnostic t = none) ∧
    (Failed t → exitStatus t = some s.cfg.exitFault) ∧
    (∀ op, causeOf (decode (fetch s).1) = some (.decodeError op) →
      diagnostic t = some (op.toNat, s.pc)) ∧
    (∀ vec, causeOf (decode (fetch s).1) = some (.trapError vec) →
      diagnostic t = some (vec.toNat, s.pc)) ∧
    (s.cfg.exitsOk = true → (Succeeded t ↔ exitStatus t = some 0) ∧
      (Failed t ↔ ∃ n, n ≠ 0 ∧ exitStatus t = some n))

/-! ### Memory and the keyboard -/

/-- R42. A read of KBSR_ADDR polls and returns the cell the poll left; a read of any other address, KBDR_ADDR
included where it differs, returns the cell with no side effect. -/
def Obligations.MemReadPollsOnlyAtKbsr : Prop :=
  (∀ s a, a ≠ s.cfg.kbsrAddr → memRead s a = (cellRead s a, s)) ∧
  (∀ s, (memRead s s.cfg.kbsrAddr).2 = kbdPoll s ∧
    (memRead s s.cfg.kbsrAddr).1 = cellRead (kbdPoll s) s.cfg.kbsrAddr)

/-- 20_memory R43; 44_trap R129, R130. The poll, for every pair of keyboard addresses: with a next character and the
host's answer true it takes that character, sets the status cell to 0x8000 and then the data cell to the
character; otherwise it takes none and clears the status cell. Either way no other cell,
register or output changes. Bits 14:0, the taking and the draw are the spec's decisions D8, D9, D10 (log 18). How the
host's answers are held is the model's choice, not the spec's (log 10): each poll uses up one listed answer and adds one
to the model's counter, and a listed answer is the next one. -/
def Obligations.PollDeliversOneCharacterOrClearsStatus : Prop :=
  (∀ s c rest, s.input = c :: rest → s.nextDraw = true →
    (kbdPoll s).input = rest ∧
    ∀ a, cellRead (kbdPoll s) a = if a = s.cfg.kbdrAddr then BitVec.ofNat 16 c.toNat
      else if a = s.cfg.kbsrAddr then 0x8000#16 else cellRead s a) ∧
  (∀ s, (s.input = [] ∨ s.nextDraw = false) →
    (kbdPoll s).input = s.input ∧
    ∀ a, cellRead (kbdPoll s) a = if a = s.cfg.kbsrAddr then 0x0000#16 else cellRead s a) ∧
  (∀ s, CoreKept s (kbdPoll s) ∧ (kbdPoll s).kbdDraws = s.kbdDraws.tail ∧
    (kbdPoll s).kbdPolls = s.kbdPolls + 1) ∧
  (∀ (s : State) (d : Bool) (ds : List Bool), s.kbdDraws = d :: ds → s.nextDraw = d)

/-- 44_trap R130 (D9, log 18). A character the poll has delivered is gone: GETC after it takes the next one. -/
def Obligations.PolledCharacterIsNotReadAgain : Prop :=
  ∀ s c d rest, s.input = c :: d :: rest → s.nextDraw = true →
    ∃ t, exec .getc (kbdPoll s) = .next t ∧ t.reg 0#3 = BitVec.ofNat 16 d.toNat ∧ t.input = rest

/-- R44. MemWrite stores any value at any address, code and keyboard cells included, and changes nothing else; the
next poll overwrites a status value stored at KBSR_ADDR. -/
def Obligations.MemWriteStoresExactlyOneCell : Prop :=
  (∀ s a v, StoresWord a v s (memWrite s a v)) ∧
  (∀ s v, (memRead (memWrite s s.cfg.kbsrAddr v) s.cfg.kbsrAddr).1 =
    (memRead s s.cfg.kbsrAddr).1)

/-- 20_memory R55 (derived there), R52. The fetch right after a store sees the stored word where the store hit the next
instruction's cell, and the old word otherwise; a store to the storing instruction's own cell changes nothing in
its own step. -/
def Obligations.StoreIsSeenByTheNextFetch : Prop :=
  ∀ (s : State) (sr : Reg) (off9 : BitVec 9), s.status = .running → s.pc ≠ s.cfg.kbsrAddr →
    s.pc + 1#16 ≠ s.cfg.kbsrAddr → decode (cellRead s s.pc) = .st sr off9 →
    ∃ t, step s = .next t ∧ t.pc = s.pc + 1#16 ∧ t.status = .running ∧
      cellRead t (s.pc + 1#16 + sext16 off9) = s.reg sr ∧
      (fetch t).1 = if s.pc + 1#16 + sext16 off9 = s.pc + 1#16 then s.reg sr
        else cellRead s (s.pc + 1#16)

/-- The model's memory form (log 1): two memories in canonical form that read alike at every address are equal, so
equal contents are equal data. -/
def Obligations.CanonicalMemoriesThatReadAlikeAreEqual : Prop :=
  ∀ m n : Memory, m.wf → n.wf → (∀ a, a < 65536 → m.read a = n.read a) → m = n

/-! ### The whole machine -/

/-- 40_execution_cycle R81, R82, R84. While Running, a step is exec of the decoded instruction on the state after the
increment; a fetch from KBSR_ADDR polls first (D12, log 18). A cell that holds the encoding of a well-formed
instruction runs that instruction. -/
def Obligations.StepRunsTheDecodedInstruction : Prop :=
  ∀ s : State, s.status = .running →
    (s.pc ≠ s.cfg.kbsrAddr →
      step s = exec (decode (cellRead s s.pc)) { s with pc := s.pc + 1#16 }) ∧
    (s.pc = s.cfg.kbsrAddr →
      step s = exec (decode (cellRead (kbdPoll s) s.pc)) { kbdPoll s with pc := s.pc + 1#16 }) ∧
    (∀ i : Instr, i.wf = true → s.pc ≠ s.cfg.kbsrAddr → cellRead s s.pc = encode i →
      step s = exec i { s with pc := s.pc + 1#16 })

/-- R23. Every step sets the PC to fpc + 1; a taken BR, JMP (and RET), JSR and JSRR overwrite it, as R100 to R103 say,
and no other instruction writes it, a TRAP included. After 0xFFFF the PC is 0x0000. -/
def Obligations.ThePcAdvancesByOneUnlessControlTransfers : Prop :=
  (∀ s t : State, step s = .next t →
    match decode (fetch s).1 with
    | .br n z p off9 => t.pc = if (n = true ∧ s.cond = .negative) ∨ (z = true ∧ s.cond = .zero) ∨
        (p = true ∧ s.cond = .positive) then s.pc + 1#16 + sext16 off9 else s.pc + 1#16
    | .jmp baseR => t.pc = s.reg baseR
    | .ret => t.pc = s.reg 7#3
    | .jsr off11 => t.pc = s.pc + 1#16 + sext16 off11
    | .jsrr baseR => t.pc = if baseR = 7#3 ∧ s.cfg.jsrrLinkFirst = true then s.pc + 1#16
        else s.reg baseR
    | _ => t.pc = s.pc + 1#16) ∧
  (∀ s : State, s.pc = 0xFFFF#16 → (fetch s).2.pc = 0x0000#16)

/-- R26. COND is written exactly by ADD, AND, NOT, LD, LDI, LDR, LEA from DR and by TRAP GETC and IN from R0, each time
from the register's value after the instruction; every other instruction leaves it. Only BR reads it: any other
instruction acts alike whatever COND was. -/
def Obligations.CondIsWrittenAndReadAsListed : Prop :=
  (∀ (i : Instr) (s t : State), exec i s = .next t →
    (∀ r, flagSource i = some r → t.cond = flagsOf (t.reg r)) ∧
    (flagSource i = none → t.cond = s.cond)) ∧
  (∀ (i : Instr) (s t : State) (c : Cond), exec i s = .next t →
    (∀ n z p off9, i ≠ .br n z p off9) →
    exec i { s with cond := c } =
      .next { t with cond := if flagSource i = none then c else t.cond })

/-- 10_state R20, R21 (derived there). An instruction that completes writes no general register but those the table
lists for it; in particular no TRAP writes R7. -/
def Obligations.OnlyListedRegistersAreWritten : Prop :=
  ∀ (i : Instr) (s t : State), exec i s = .next t → RegsKeptBut (destRegs i) s t

/-- 20_memory R40, R42, R44, R49. An instruction that completes changes no cell but the one ST, STI or STR stores to
and, where one of its MemReads is of KBSR_ADDR, the two keyboard cells; and it takes nothing from the input side
unless it reads KBSR_ADDR or is GETC or IN. -/
def Obligations.OnlyStoresAndPollsChangeCells : Prop :=
  ∀ (i : Instr) (s t : State), exec i s = .next t →
    (∀ a, storeAddr s i ≠ some a →
      (s.cfg.kbsrAddr ∈ readAddrs s i → a ≠ s.cfg.kbsrAddr ∧ a ≠ s.cfg.kbdrAddr) →
      cellRead t a = cellRead s a) ∧
    (s.cfg.kbsrAddr ∉ readAddrs s i → serviceOf i ≠ some .getc → serviceOf i ≠ some .inChar →
      InputKept s t)

/-- 10_state R32, R36; 44_trap R130; 00_scope R6. Over a step OUT_SEQ only grows at its end, INPUT only loses
characters from its front, and the parameters are unchanged. -/
def Obligations.OutputGrowsInputShrinksParametersStay : Prop :=
  ∀ s t : State, step s = .next t →
    s.outSeq <+: t.outSeq ∧ t.input <:+ s.input ∧ t.cfg = s.cfg

/-- The model's memory form (log 1) is an invariant: from every state with it, a step that answers a next state keeps
it. -/
def Obligations.StepKeepsMemoryCanonical : Prop :=
  ∀ s t : State, CanonicalMemory s → step s = .next t → CanonicalMemory t

/-- 10_state R34; 44_trap R129. A step that fetches from and reads no KBSR_ADDR and is not GETC or IN cannot see the
input side: with other characters and other availability answers it does the same and leaves them alone. -/
def Obligations.InputIsUnseenWithoutAPollOrARead : Prop :=
  ∀ (s t : State) (input : List Byte) (draws : List Bool) (polls : Nat),
    s.pc ≠ s.cfg.kbsrAddr →
    s.cfg.kbsrAddr ∉ readAddrs (fetch s).2 (decode (fetch s).1) →
    serviceOf (decode (fetch s).1) ≠ some .getc →
    serviceOf (decode (fetch s).1) ≠ some .inChar →
    step s = .next t →
    step (withInput input draws polls s) = .next (withInput input draws polls t)

/-! ### Encoding -/

/-- 30_encoding R62, R65, R66, R67, R68, R70. Every row of the table, with every value of its fields and of its unused
bits, decodes to its instruction. The numbers and positions are the spec's decisions D2 and D3 (log 15), the
ignored bits D5 and D6 (log 16), the separate names for JMP R7 and the six vectors the model's (log 17). -/
def Obligations.DecodeFollowsTheFieldLayouts : Prop :=
  (∀ (dr sr1 sr2 : Reg) (x : BitVec 2),
    decode (0x1#4 ++ dr ++ sr1 ++ 0#1 ++ x ++ sr2) = .addReg dr sr1 sr2 ∧
    decode (0x5#4 ++ dr ++ sr1 ++ 0#1 ++ x ++ sr2) = .andReg dr sr1 sr2) ∧
  (∀ (dr sr1 : Reg) (imm5 : BitVec 5),
    decode (0x1#4 ++ dr ++ sr1 ++ 1#1 ++ imm5) = .addImm dr sr1 imm5 ∧
    decode (0x5#4 ++ dr ++ sr1 ++ 1#1 ++ imm5) = .andImm dr sr1 imm5) ∧
  (∀ (dr sr : Reg) (x : BitVec 6), decode (0x9#4 ++ dr ++ sr ++ x) = .not dr sr) ∧
  (∀ (n z p : Bool) (off9 : BitVec 9),
    decode (0x0#4 ++ BitVec.ofBool n ++ BitVec.ofBool z ++ BitVec.ofBool p ++ off9) =
      .br n z p off9) ∧
  (∀ (x : BitVec 3) (baseR : Reg) (y : BitVec 6),
    decode (0xC#4 ++ x ++ baseR ++ y) = if baseR = 7#3 then .ret else .jmp baseR) ∧
  (∀ off11 : BitVec 11, decode (0x4#4 ++ 1#1 ++ off11) = .jsr off11) ∧
  (∀ (x : BitVec 2) (baseR : Reg) (y : BitVec 6),
    decode (0x4#4 ++ 0#1 ++ x ++ baseR ++ y) = .jsrr baseR) ∧
  (∀ (r : Reg) (off9 : BitVec 9),
    decode (0x2#4 ++ r ++ off9) = .ld r off9 ∧ decode (0xA#4 ++ r ++ off9) = .ldi r off9 ∧
    decode (0xE#4 ++ r ++ off9) = .lea r off9 ∧ decode (0x3#4 ++ r ++ off9) = .st r off9 ∧
    decode (0xB#4 ++ r ++ off9) = .sti r off9) ∧
  (∀ (r baseR : Reg) (off6 : BitVec 6),
    decode (0x6#4 ++ r ++ baseR ++ off6) = .ldr r baseR off6 ∧
    decode (0x7#4 ++ r ++ baseR ++ off6) = .str r baseR off6) ∧
  (∀ x : BitVec 4,
    decode (0xF#4 ++ x ++ 0x20#8) = .getc ∧ decode (0xF#4 ++ x ++ 0x21#8) = .out ∧
    decode (0xF#4 ++ x ++ 0x22#8) = .puts ∧ decode (0xF#4 ++ x ++ 0x23#8) = .inChar ∧
    decode (0xF#4 ++ x ++ 0x24#8) = .putsp ∧ decode (0xF#4 ++ x ++ 0x25#8) = .halt) ∧
  (∀ (x : BitVec 4) (vec : BitVec 8), (vec.toNat < 0x20 ∨ 0x25 < vec.toNat) →
    decode (0xF#4 ++ x ++ vec) = .trap vec) ∧
  (∀ x : BitVec 12, decode (0x8#4 ++ x) = .noHandler8 ∧ decode (0xD#4 ++ x) = .noHandlerD)

/-- 30_encoding R62, R66, R67. Decoding the encoding of a well-formed instruction gives it back, for every instruction
and every operand value. -/
def Obligations.DecodeOfEncodeIsTheInstruction : Prop :=
  ∀ i : Instr, i.wf = true → decode (encode i) = i

/-- 30_encoding R67, R68 (D5, D6, log 16). Two words decode to the same instruction if and only if they agree in the
bits the instruction uses: no unused bit changes it, and every used bit matters. -/
def Obligations.WordsDecodeAlikeIffTheirUsedBitsAgree : Prop :=
  ∀ v w : Word,
    decode v = decode w ↔ v &&& usedMask (decode w) = w &&& usedMask (decode w)

/-- 30_encoding R67, R72. The decoder is total, and every instruction it gives is well formed, so it is the one its own
encoding decodes to. That it is well formed says that JMP R7 is given as `ret` and TRAP x20 to x25 by their services'
names, where R67 gives JMP and TRAP: that naming is the model's choice (log 17). -/
def Obligations.DecodedInstructionsAreWellFormed : Prop :=
  ∀ w : Word, (decode w).wf = true ∧ decode (encode (decode w)) = decode w

/-- A sanity check: words of the tables of 41_operate R96, 42_control R105, 43_load_store R118 and 44_trap R133. -/
def Obligations.WordsOfTheSpecTablesDecode : Prop :=
  decode 0x1042#16 = .addReg 0 1 2 ∧ decode 0x107D#16 = .addImm 0 1 0b11101#5 ∧
  decode 0x56E0#16 = .andImm 3 3 0 ∧ decode 0x9B3F#16 = .not 5 4 ∧
  decode 0x0402#16 = .br false true false 2 ∧ decode 0xC080#16 = .jmp 2 ∧
  decode 0xC1C0#16 = .ret ∧ decode 0x4810#16 = .jsr 16 ∧ decode 0x40C0#16 = .jsrr 3 ∧
  decode 0x2205#16 = .ld 1 5 ∧ decode 0x33FE#16 = .st 1 0b111111110#9 ∧
  decode 0x73BF#16 = .str 1 6 0b111111#6 ∧ decode 0xF023#16 = .inChar

/-! ### Reset, loading and starting -/

/-- R162. An image file of big-endian words, origin first, is read as its origin and its words, for every image that
fits below 0x10000. -/
def Obligations.ImagesAreReadBigEndianOriginFirst : Prop :=
  ∀ (o : Word) (ws : List Word), o.toNat + ws.length ≤ 65536 →
    parseImage ((o :: ws).flatMap (fun w =>
      [BitVec.ofNat 8 (w.toNat / 256), BitVec.ofNat 8 (w.toNat % 256)])) = some ⟨o, ws⟩

/-- R33, R163. Where every image file is read and there is at least one, the run starts with R0 to R7 zero, PC =
0x3000, COND = ZERO, Running, no output, the host's INPUT, and each cell at the word of the
last image in order that covers it, 0x0000 where none does. -/
def Obligations.LaunchHoldsTheResetValuesAndTheImages : Prop :=
  ∀ (cfg : Config) (files : List (Option (List Byte))) (images : List Image) (input : List Byte)
    (draws : List Bool), files ≠ [] →
    files.map (fun f => f.bind parseImage) = images.map some →
    ∃ s, launch cfg files input draws = .ok s ∧ (∀ r, s.reg r = 0x0000#16) ∧
      s.pc = 0x3000#16 ∧ s.cond = .zero ∧ s.status = .running ∧ s.outSeq = [] ∧
      s.input = input ∧ s.kbdDraws = draws ∧ s.cfg = cfg ∧
      ∀ a : Word, cellRead s a = images.foldl (fun w img =>
        if img.origin.toNat ≤ a.toNat ∧ a.toNat < img.origin.toNat + img.words.length
        then img.words.getD (a.toNat - img.origin.toNat) 0x0000#16 else w) 0x0000#16

/-- 70_reset R164, R170 (D21, D24). A run does not start with no image, or when some file cannot be read; a file is no
image when it has an odd number of bytes, no origin word, or words past 0xFFFF, and only then; and where the exit
statuses meet R170's constraints (their success status by log 21), those of the two refusals are nonzero and differ. -/
def Obligations.BadImagesAreRefused : Prop :=
  (∀ cfg input draws, launch cfg [] input draws = .error .usage) ∧
  (∀ cfg files input draws, files ≠ [] →
    ((∃ f ∈ files, f.bind parseImage = none) ↔
      ∃ i, launch cfg files input draws = .error (.load i))) ∧
  (∀ bytes : List Byte, parseImage bytes = none ↔
    bytes.length % 2 = 1 ∨ bytes = [] ∨
    (∃ hi lo rest, bytes = hi :: lo :: rest ∧
      (hi ++ lo : Word).toNat + rest.length / 2 > 65536)) ∧
  (∀ (cfg : Config) (i : Nat), cfg.exitsOk = true →
    refusalStatus cfg .usage ≠ refusalStatus cfg (.load i) ∧
    refusalStatus cfg .usage ≠ 0 ∧ refusalStatus cfg (.load i) ≠ 0)

/-- 70_reset R163; log 1. Every state a launch gives holds its memory in canonical form. -/
def Obligations.LaunchedMemoryIsCanonical : Prop :=
  ∀ cfg files input draws s, launch cfg files input draws = .ok s → CanonicalMemory s

/-- 10_state R33. The reset state's spec-given values, with no image loaded. (INPUT and the availability answers are the
model's choice there, log 9; nothing is said of them.) -/
def Obligations.ResetHoldsTheSpecValues : Prop :=
  (∀ r, State.reset.reg r = 0x0000#16) ∧ State.reset.pc = 0x3000#16 ∧
  State.reset.cond = .zero ∧ State.reset.status = .running ∧ State.reset.outSeq = [] ∧
  (∀ a, cellRead State.reset a = 0x0000#16)

/-- The invariant of `StepKeepsMemoryCanonical` holds at reset (log 1). -/
def Obligations.ResetMemoryIsCanonical : Prop := CanonicalMemory State.reset
end

