-- ==== Sys2Proof/Laws/State.lean ====
section
/-! SUPPORT. One lemma per field per update of State, and what each update does to a register and to a cell. -/

namespace Sys2Proof.Machine

/-! ### `setReg` -/

@[simp] theorem setReg_regs (s : State) (r : Reg) (v : Word) : (s.setReg r v).regs = s.regs.set r.toNat v r.isLt := rfl
@[simp] theorem setReg_pc (s : State) (r : Reg) (v : Word) : (s.setReg r v).pc = s.pc := rfl
@[simp] theorem setReg_cond (s : State) (r : Reg) (v : Word) : (s.setReg r v).cond = s.cond := rfl
@[simp] theorem setReg_mem (s : State) (r : Reg) (v : Word) : (s.setReg r v).mem = s.mem := rfl
@[simp] theorem setReg_status (s : State) (r : Reg) (v : Word) : (s.setReg r v).status = s.status := rfl
@[simp] theorem setReg_outSeq (s : State) (r : Reg) (v : Word) : (s.setReg r v).outSeq = s.outSeq := rfl
@[simp] theorem setReg_input (s : State) (r : Reg) (v : Word) : (s.setReg r v).input = s.input := rfl
@[simp] theorem setReg_kbdDraws (s : State) (r : Reg) (v : Word) : (s.setReg r v).kbdDraws = s.kbdDraws := rfl
@[simp] theorem setReg_kbdPolls (s : State) (r : Reg) (v : Word) : (s.setReg r v).kbdPolls = s.kbdPolls := rfl
@[simp] theorem setReg_cfg (s : State) (r : Reg) (v : Word) : (s.setReg r v).cfg = s.cfg := rfl
@[simp] theorem setReg_cellRead (s : State) (r : Reg) (v : Word) (b : Word) : cellRead (s.setReg r v) b = cellRead s b := rfl

/-! ### `setPc` -/

@[simp] theorem setPc_regs (s : State) (v : Word) : (s.setPc v).regs = s.regs := rfl
@[simp] theorem setPc_pc (s : State) (v : Word) : (s.setPc v).pc = v := rfl
@[simp] theorem setPc_cond (s : State) (v : Word) : (s.setPc v).cond = s.cond := rfl
@[simp] theorem setPc_mem (s : State) (v : Word) : (s.setPc v).mem = s.mem := rfl
@[simp] theorem setPc_status (s : State) (v : Word) : (s.setPc v).status = s.status := rfl
@[simp] theorem setPc_outSeq (s : State) (v : Word) : (s.setPc v).outSeq = s.outSeq := rfl
@[simp] theorem setPc_input (s : State) (v : Word) : (s.setPc v).input = s.input := rfl
@[simp] theorem setPc_kbdDraws (s : State) (v : Word) : (s.setPc v).kbdDraws = s.kbdDraws := rfl
@[simp] theorem setPc_kbdPolls (s : State) (v : Word) : (s.setPc v).kbdPolls = s.kbdPolls := rfl
@[simp] theorem setPc_cfg (s : State) (v : Word) : (s.setPc v).cfg = s.cfg := rfl
@[simp] theorem setPc_reg (s : State) (v : Word) (q : Reg) : (s.setPc v).reg q = s.reg q := rfl
@[simp] theorem setPc_cellRead (s : State) (v : Word) (b : Word) : cellRead (s.setPc v) b = cellRead s b := rfl

/-! ### `memWrite` -/

@[simp] theorem memWrite_regs (s : State) (a v : Word) : (memWrite s a v).regs = s.regs := rfl
@[simp] theorem memWrite_pc (s : State) (a v : Word) : (memWrite s a v).pc = s.pc := rfl
@[simp] theorem memWrite_cond (s : State) (a v : Word) : (memWrite s a v).cond = s.cond := rfl
@[simp] theorem memWrite_mem (s : State) (a v : Word) : (memWrite s a v).mem = s.mem.write a.toNat v := rfl
@[simp] theorem memWrite_status (s : State) (a v : Word) : (memWrite s a v).status = s.status := rfl
@[simp] theorem memWrite_outSeq (s : State) (a v : Word) : (memWrite s a v).outSeq = s.outSeq := rfl
@[simp] theorem memWrite_input (s : State) (a v : Word) : (memWrite s a v).input = s.input := rfl
@[simp] theorem memWrite_kbdDraws (s : State) (a v : Word) : (memWrite s a v).kbdDraws = s.kbdDraws := rfl
@[simp] theorem memWrite_kbdPolls (s : State) (a v : Word) : (memWrite s a v).kbdPolls = s.kbdPolls := rfl
@[simp] theorem memWrite_cfg (s : State) (a v : Word) : (memWrite s a v).cfg = s.cfg := rfl
@[simp] theorem memWrite_reg (s : State) (a v : Word) (q : Reg) : (memWrite s a v).reg q = s.reg q := rfl

/-! ### `emit` -/

@[simp] theorem emit_regs (s : State) (bs : List Byte) : (emit s bs).regs = s.regs := rfl
@[simp] theorem emit_pc (s : State) (bs : List Byte) : (emit s bs).pc = s.pc := rfl
@[simp] theorem emit_cond (s : State) (bs : List Byte) : (emit s bs).cond = s.cond := rfl
@[simp] theorem emit_mem (s : State) (bs : List Byte) : (emit s bs).mem = s.mem := rfl
@[simp] theorem emit_status (s : State) (bs : List Byte) : (emit s bs).status = s.status := rfl
@[simp] theorem emit_outSeq (s : State) (bs : List Byte) : (emit s bs).outSeq = s.outSeq ++ bs := rfl
@[simp] theorem emit_input (s : State) (bs : List Byte) : (emit s bs).input = s.input := rfl
@[simp] theorem emit_kbdDraws (s : State) (bs : List Byte) : (emit s bs).kbdDraws = s.kbdDraws := rfl
@[simp] theorem emit_kbdPolls (s : State) (bs : List Byte) : (emit s bs).kbdPolls = s.kbdPolls := rfl
@[simp] theorem emit_cfg (s : State) (bs : List Byte) : (emit s bs).cfg = s.cfg := rfl
@[simp] theorem emit_reg (s : State) (bs : List Byte) (q : Reg) : (emit s bs).reg q = s.reg q := rfl
@[simp] theorem emit_cellRead (s : State) (bs : List Byte) (b : Word) : cellRead (emit s bs) b = cellRead s b := rfl

/-! ### `updateFlags` -/

@[simp] theorem updateFlags_regs (s : State) (r : Reg) : (updateFlags s r).regs = s.regs := rfl
@[simp] theorem updateFlags_pc (s : State) (r : Reg) : (updateFlags s r).pc = s.pc := rfl
@[simp] theorem updateFlags_cond (s : State) (r : Reg) : (updateFlags s r).cond = flagsOf (s.reg r) := rfl
@[simp] theorem updateFlags_mem (s : State) (r : Reg) : (updateFlags s r).mem = s.mem := rfl
@[simp] theorem updateFlags_status (s : State) (r : Reg) : (updateFlags s r).status = s.status := rfl
@[simp] theorem updateFlags_outSeq (s : State) (r : Reg) : (updateFlags s r).outSeq = s.outSeq := rfl
@[simp] theorem updateFlags_input (s : State) (r : Reg) : (updateFlags s r).input = s.input := rfl
@[simp] theorem updateFlags_kbdDraws (s : State) (r : Reg) : (updateFlags s r).kbdDraws = s.kbdDraws := rfl
@[simp] theorem updateFlags_kbdPolls (s : State) (r : Reg) : (updateFlags s r).kbdPolls = s.kbdPolls := rfl
@[simp] theorem updateFlags_cfg (s : State) (r : Reg) : (updateFlags s r).cfg = s.cfg := rfl
@[simp] theorem updateFlags_reg (s : State) (r : Reg) (q : Reg) : (updateFlags s r).reg q = s.reg q := rfl
@[simp] theorem updateFlags_cellRead (s : State) (r : Reg) (b : Word) : cellRead (updateFlags s r) b = cellRead s b := rfl

/-! ### `raise` -/

@[simp] theorem raise_regs (s : State) (c : Cause) : (raise s c).regs = s.regs := rfl
@[simp] theorem raise_pc (s : State) (c : Cause) : (raise s c).pc = s.pc := rfl
@[simp] theorem raise_cond (s : State) (c : Cause) : (raise s c).cond = s.cond := rfl
@[simp] theorem raise_mem (s : State) (c : Cause) : (raise s c).mem = s.mem := rfl
@[simp] theorem raise_status (s : State) (c : Cause) : (raise s c).status = .faulted c (s.pc - 1#16) := rfl
@[simp] theorem raise_outSeq (s : State) (c : Cause) : (raise s c).outSeq = s.outSeq := rfl
@[simp] theorem raise_input (s : State) (c : Cause) : (raise s c).input = s.input := rfl
@[simp] theorem raise_kbdDraws (s : State) (c : Cause) : (raise s c).kbdDraws = s.kbdDraws := rfl
@[simp] theorem raise_kbdPolls (s : State) (c : Cause) : (raise s c).kbdPolls = s.kbdPolls := rfl
@[simp] theorem raise_cfg (s : State) (c : Cause) : (raise s c).cfg = s.cfg := rfl
@[simp] theorem raise_reg (s : State) (c : Cause) (q : Reg) : (raise s c).reg q = s.reg q := rfl
@[simp] theorem raise_cellRead (s : State) (c : Cause) (b : Word) : cellRead (raise s c) b = cellRead s b := rfl

/-! ### `haltRun` -/

@[simp] theorem haltRun_regs (s : State) : (haltRun s).regs = s.regs := rfl
@[simp] theorem haltRun_pc (s : State) : (haltRun s).pc = s.pc := rfl
@[simp] theorem haltRun_cond (s : State) : (haltRun s).cond = s.cond := rfl
@[simp] theorem haltRun_mem (s : State) : (haltRun s).mem = s.mem := rfl
@[simp] theorem haltRun_status (s : State) : (haltRun s).status = .halted := rfl
@[simp] theorem haltRun_outSeq (s : State) : (haltRun s).outSeq = s.outSeq := rfl
@[simp] theorem haltRun_input (s : State) : (haltRun s).input = s.input := rfl
@[simp] theorem haltRun_kbdDraws (s : State) : (haltRun s).kbdDraws = s.kbdDraws := rfl
@[simp] theorem haltRun_kbdPolls (s : State) : (haltRun s).kbdPolls = s.kbdPolls := rfl
@[simp] theorem haltRun_cfg (s : State) : (haltRun s).cfg = s.cfg := rfl
@[simp] theorem haltRun_reg (s : State) (q : Reg) : (haltRun s).reg q = s.reg q := rfl
@[simp] theorem haltRun_cellRead (s : State) (b : Word) : cellRead (haltRun s) b = cellRead s b := rfl

/-! ### `link` -/

@[simp] theorem link_regs (s : State) : (link s).regs = s.regs.set 7 s.pc := rfl
@[simp] theorem link_pc (s : State) : (link s).pc = s.pc := rfl
@[simp] theorem link_cond (s : State) : (link s).cond = s.cond := rfl
@[simp] theorem link_mem (s : State) : (link s).mem = s.mem := rfl
@[simp] theorem link_status (s : State) : (link s).status = s.status := rfl
@[simp] theorem link_outSeq (s : State) : (link s).outSeq = s.outSeq := rfl
@[simp] theorem link_input (s : State) : (link s).input = s.input := rfl
@[simp] theorem link_kbdDraws (s : State) : (link s).kbdDraws = s.kbdDraws := rfl
@[simp] theorem link_kbdPolls (s : State) : (link s).kbdPolls = s.kbdPolls := rfl
@[simp] theorem link_cfg (s : State) : (link s).cfg = s.cfg := rfl
@[simp] theorem link_cellRead (s : State) (b : Word) : cellRead (link s) b = cellRead s b := rfl

/-! ### `jumpTo` -/

@[simp] theorem jumpTo_regs (s : State) (r : Reg) : (jumpTo r s).regs = s.regs := rfl
@[simp] theorem jumpTo_pc (s : State) (r : Reg) : (jumpTo r s).pc = s.reg r := rfl
@[simp] theorem jumpTo_cond (s : State) (r : Reg) : (jumpTo r s).cond = s.cond := rfl
@[simp] theorem jumpTo_mem (s : State) (r : Reg) : (jumpTo r s).mem = s.mem := rfl
@[simp] theorem jumpTo_status (s : State) (r : Reg) : (jumpTo r s).status = s.status := rfl
@[simp] theorem jumpTo_outSeq (s : State) (r : Reg) : (jumpTo r s).outSeq = s.outSeq := rfl
@[simp] theorem jumpTo_input (s : State) (r : Reg) : (jumpTo r s).input = s.input := rfl
@[simp] theorem jumpTo_kbdDraws (s : State) (r : Reg) : (jumpTo r s).kbdDraws = s.kbdDraws := rfl
@[simp] theorem jumpTo_kbdPolls (s : State) (r : Reg) : (jumpTo r s).kbdPolls = s.kbdPolls := rfl
@[simp] theorem jumpTo_cfg (s : State) (r : Reg) : (jumpTo r s).cfg = s.cfg := rfl
@[simp] theorem jumpTo_reg (s : State) (r : Reg) (q : Reg) : (jumpTo r s).reg q = s.reg q := rfl
@[simp] theorem jumpTo_cellRead (s : State) (r : Reg) (b : Word) : cellRead (jumpTo r s) b = cellRead s b := rfl

/-! ### Registers -/

/-- A write of `x[r]` and a read of `x[q]`. -/
theorem setReg_reg (s : State) (r q : Reg) (v : Word) :
    (s.setReg r v).reg q = if q = r then v else s.reg q := by
  simp only [State.reg, State.setReg, Vector.getElem_set]
  by_cases h : q = r
  · simp [h]
  · rw [if_neg h, if_neg (fun e => h (BitVec.eq_of_toNat_eq e.symm))]

@[simp] theorem setReg_reg_same (s : State) (r : Reg) (v : Word) : (s.setReg r v).reg r = v := by
  simp [setReg_reg]

theorem setReg_reg_other (s : State) (r q : Reg) (v : Word) (h : q ≠ r) :
    (s.setReg r v).reg q = s.reg q := by
  simp [setReg_reg, h]

theorem link_reg (s : State) (q : Reg) : (link s).reg q = if q = 7#3 then s.pc else s.reg q :=
  setReg_reg s 7#3 q s.pc

/-! ### `writeDest` (40_execution_cycle R86) -/

@[simp] theorem writeDest_regs (s : State) (r : Reg) (v : Word) : (writeDest s r v).regs = s.regs.set r.toNat v r.isLt := rfl
@[simp] theorem writeDest_pc (s : State) (r : Reg) (v : Word) : (writeDest s r v).pc = s.pc := rfl
@[simp] theorem writeDest_mem (s : State) (r : Reg) (v : Word) : (writeDest s r v).mem = s.mem := rfl
@[simp] theorem writeDest_status (s : State) (r : Reg) (v : Word) : (writeDest s r v).status = s.status := rfl
@[simp] theorem writeDest_outSeq (s : State) (r : Reg) (v : Word) : (writeDest s r v).outSeq = s.outSeq := rfl
@[simp] theorem writeDest_input (s : State) (r : Reg) (v : Word) : (writeDest s r v).input = s.input := rfl
@[simp] theorem writeDest_kbdDraws (s : State) (r : Reg) (v : Word) : (writeDest s r v).kbdDraws = s.kbdDraws := rfl
@[simp] theorem writeDest_kbdPolls (s : State) (r : Reg) (v : Word) : (writeDest s r v).kbdPolls = s.kbdPolls := rfl
@[simp] theorem writeDest_cfg (s : State) (r : Reg) (v : Word) : (writeDest s r v).cfg = s.cfg := rfl

@[simp] theorem writeDest_cond (s : State) (r : Reg) (v : Word) :
    (writeDest s r v).cond = flagsOf v := by
  simp [writeDest]

theorem writeDest_reg (s : State) (r q : Reg) (v : Word) :
    (writeDest s r v).reg q = if q = r then v else s.reg q :=
  setReg_reg s r q v

@[simp] theorem writeDest_cellRead (s : State) (r : Reg) (v b : Word) :
    cellRead (writeDest s r v) b = cellRead s b := rfl

end Sys2Proof.Machine
end

