-- ==== Sys2Proof/Laws/Memory.lean ====
section
/-! SUPPORT. Memory: a read after a write, and the canonical form that every write keeps (20_memory R44, R52). -/

namespace Sys2Proof.Machine

/-! ### Reads after writes, for every memory -/

theorem Memory.read_erase (m : Memory) (a b : Nat) :
    (m.erase a).read b = if b = a then Memory.unlisted else m.read b := by
  induction m with
  | nil => simp [Memory.erase, Memory.read]
  | cons c m ih =>
    obtain ⟨k, w⟩ := c
    by_cases hk : k = a <;> by_cases hb : b = a <;> simp_all [Memory.erase, Memory.read]
    intro h; exact absurd h.symm hb

theorem Memory.read_insertCell (m : Memory) (a b : Nat) (v : Word) (h : ∀ c ∈ m, c.1 ≠ a) :
    (m.insertCell (a, v)).read b = if b = a then v else m.read b := by
  induction m with
  | nil => simp [Memory.insertCell, Memory.read, eq_comm]
  | cons c m ih =>
    obtain ⟨k, w⟩ := c
    have hk : k ≠ a := h (k, w) (by simp)
    have ih' := ih (fun c hc => h c (by simp [hc]))
    by_cases hlt : a < k
    · simp [Memory.insertCell, Memory.read, hlt, eq_comm]
    · by_cases hb : b = a
      · subst hb; simp [Memory.insertCell, Memory.read, hlt, hk, ih']
      · simp [Memory.insertCell, Memory.read, hlt, hb, ih']

theorem Memory.ne_of_mem_erase (m : Memory) (a : Nat) : ∀ c ∈ m.erase a, c.1 ≠ a := by
  induction m with
  | nil => simp [Memory.erase]
  | cons d m ih =>
    by_cases hd : d.1 = a
    · simpa [Memory.erase, hd] using ih
    · simpa [Memory.erase, hd] using ih

/-- A read after a write: the value written there, the old value elsewhere. -/
theorem Memory.read_write (m : Memory) (a b : Nat) (v : Word) :
    (m.write a v).read b = if b = a then v else m.read b := by
  unfold Memory.write
  split
  · next h => rw [Memory.read_erase, h]
  · rw [Memory.read_insertCell _ _ _ _ (Memory.ne_of_mem_erase m a), Memory.read_erase]
    by_cases hb : b = a <;> simp [hb]

/-! ### The canonical form -/

theorem Memory.mem_erase (m : Memory) (a : Nat) : ∀ c ∈ m.erase a, c ∈ m := by
  induction m with
  | nil => simp [Memory.erase]
  | cons d m ih =>
    intro c hc
    by_cases hd : d.1 = a
    · simp only [Memory.erase, hd, if_true] at hc
      exact List.mem_cons_of_mem _ (ih c hc)
    · simp only [Memory.erase, hd, if_false, List.mem_cons] at hc ⊢
      exact hc.imp_right (ih c)

theorem Memory.mem_insertCell (x : Cell) (m : Memory) :
    ∀ c, c ∈ m.insertCell x ↔ c = x ∨ c ∈ m := by
  induction m with
  | nil => simp [Memory.insertCell]
  | cons d m ih =>
    intro c
    by_cases hd : x.1 < d.1
    · simp [Memory.insertCell, hd]
    · simp only [Memory.insertCell, hd, if_false, List.mem_cons, ih]
      tauto

theorem Memory.rising_erase (m : Memory) (a : Nat) (h : m.Pairwise (fun c d => c.1 < d.1)) :
    (m.erase a).Pairwise (fun c d => c.1 < d.1) := by
  induction m with
  | nil => exact h
  | cons d m ih =>
    obtain ⟨hd, hm⟩ := List.pairwise_cons.mp h
    by_cases he : d.1 = a
    · simpa [Memory.erase, he] using ih hm
    · simp only [Memory.erase, he, if_false, List.pairwise_cons]
      exact ⟨fun c hc => hd c (Memory.mem_erase m a c hc), ih hm⟩

theorem Memory.rising_insertCell (x : Cell) (m : Memory) (hx : ∀ c ∈ m, c.1 ≠ x.1)
    (h : m.Pairwise (fun c d => c.1 < d.1)) :
    (m.insertCell x).Pairwise (fun c d => c.1 < d.1) := by
  induction m with
  | nil => simp [Memory.insertCell]
  | cons d m ih =>
    obtain ⟨hd, hm⟩ := List.pairwise_cons.mp h
    by_cases hlt : x.1 < d.1
    · simp only [Memory.insertCell, hlt, if_true, List.pairwise_cons]
      refine ⟨fun c hc => ?_, hd, hm⟩
      rcases List.mem_cons.mp hc with rfl | hc
      · exact hlt
      · exact hlt.trans (hd c hc)
    · have hdx : d.1 < x.1 := by have := hx d (by simp); omega
      simp only [Memory.insertCell, hlt, if_false, List.pairwise_cons]
      refine ⟨fun c hc => ?_, ih (fun c hc => hx c (by simp [hc])) hm⟩
      rcases (Memory.mem_insertCell x m c).mp hc with rfl | hc
      · exact hdx
      · exact hd c hc

/-- Every write keeps the canonical form. -/
theorem Memory.write_wf (m : Memory) (a : Nat) (v : Word) (ha : a < 65536) (h : m.wf) :
    (m.write a v).wf := by
  unfold Memory.write
  have hr := Memory.rising_erase m a h.1
  split
  · exact ⟨hr, fun c hc => h.2 c (Memory.mem_erase m a c hc)⟩
  · next hv =>
    refine ⟨Memory.rising_insertCell _ _ (Memory.ne_of_mem_erase m a) hr, fun c hc => ?_⟩
    rcases (Memory.mem_insertCell _ _ c).mp hc with rfl | hc
    · exact ⟨ha, hv⟩
    · exact h.2 c (Memory.mem_erase m a c hc)

/-- Below the first listed address every read gives the unlisted value. -/
theorem Memory.read_lt_first (m : Memory) (a : Nat) (h : ∀ c ∈ m, a < c.1) :
    m.read a = Memory.unlisted := by
  induction m with
  | nil => rfl
  | cons c m ih =>
    obtain ⟨k, w⟩ := c
    have hk : k ≠ a := by have := h (k, w) (by simp); simp at this; omega
    simpa [Memory.read, hk] using ih (fun c hc => h c (by simp [hc]))

/-! ### Cells of a state -/

theorem memWrite_cellRead (s : State) (a b v : Word) :
    cellRead (memWrite s a v) b = if b = a then v else cellRead s b := by
  simp only [cellRead, memWrite_mem, Memory.read_write]
  by_cases h : b = a
  · simp [h]
  · rw [if_neg h, if_neg (fun e => h (BitVec.eq_of_toNat_eq e))]

theorem memWrite_wf (s : State) (a v : Word) (h : s.mem.wf) : (memWrite s a v).mem.wf :=
  Memory.write_wf _ _ _ a.isLt h

end Sys2Proof.Machine
end

