-- ==== Sys2Proof/Laws/Keyboard.lean ====
section
/-! SUPPORT. The keyboard poll, MemRead and fetch: everything each can do (20_memory R42, R43; 44_trap R129). -/

namespace Sys2Proof.Machine

/-! ### The poll -/

/-- The poll by cases: a character is delivered, or the status cell is cleared. -/
theorem kbdPoll_cases (s : State) :
    (∃ c rest, s.input = c :: rest ∧ s.nextDraw = true ∧
      kbdPoll s = memWrite (memWrite
        { s with input := rest, kbdDraws := s.kbdDraws.tail, kbdPolls := s.kbdPolls + 1 }
        s.cfg.kbsrAddr kbsrReady) s.cfg.kbdrAddr (zextByte c)) ∨
    ((s.input = [] ∨ s.nextDraw = false) ∧
      kbdPoll s = memWrite { s with kbdDraws := s.kbdDraws.tail, kbdPolls := s.kbdPolls + 1 }
        s.cfg.kbsrAddr 0x0000#16) := by
  cases hi : s.input with
  | nil => exact .inr ⟨.inl rfl, by simp [kbdPoll, kbdAvail, hi]⟩
  | cons c rest =>
    cases hd : s.nextDraw with
    | true => exact .inl ⟨c, rest, rfl, rfl, by simp [kbdPoll, kbdAvail, kbdTake, hi, hd]⟩
    | false => exact .inr ⟨.inr rfl, by simp [kbdPoll, kbdAvail, hi, hd]⟩

@[simp] theorem kbdPoll_regs (s : State) : (kbdPoll s).regs = s.regs := by
  obtain ⟨c, rest, -, -, h⟩ | ⟨-, h⟩ := kbdPoll_cases s <;> simp [h]

@[simp] theorem kbdPoll_reg (s : State) (r : Reg) : (kbdPoll s).reg r = s.reg r := by
  simp [State.reg]

@[simp] theorem kbdPoll_pc (s : State) : (kbdPoll s).pc = s.pc := by
  obtain ⟨c, rest, -, -, h⟩ | ⟨-, h⟩ := kbdPoll_cases s <;> simp [h]

@[simp] theorem kbdPoll_cond (s : State) : (kbdPoll s).cond = s.cond := by
  obtain ⟨c, rest, -, -, h⟩ | ⟨-, h⟩ := kbdPoll_cases s <;> simp [h]

@[simp] theorem kbdPoll_status (s : State) : (kbdPoll s).status = s.status := by
  obtain ⟨c, rest, -, -, h⟩ | ⟨-, h⟩ := kbdPoll_cases s <;> simp [h]

@[simp] theorem kbdPoll_outSeq (s : State) : (kbdPoll s).outSeq = s.outSeq := by
  obtain ⟨c, rest, -, -, h⟩ | ⟨-, h⟩ := kbdPoll_cases s <;> simp [h]

@[simp] theorem kbdPoll_cfg (s : State) : (kbdPoll s).cfg = s.cfg := by
  obtain ⟨c, rest, -, -, h⟩ | ⟨-, h⟩ := kbdPoll_cases s <;> simp [h]

@[simp] theorem kbdPoll_kbdDraws (s : State) : (kbdPoll s).kbdDraws = s.kbdDraws.tail := by
  obtain ⟨c, rest, -, -, h⟩ | ⟨-, h⟩ := kbdPoll_cases s <;> simp [h]

@[simp] theorem kbdPoll_kbdPolls (s : State) : (kbdPoll s).kbdPolls = s.kbdPolls + 1 := by
  obtain ⟨c, rest, -, -, h⟩ | ⟨-, h⟩ := kbdPoll_cases s <;> simp [h]

/-- The poll takes nothing or the first character. -/
theorem kbdPoll_input (s : State) : (kbdPoll s).input <:+ s.input := by
  obtain ⟨c, rest, hi, -, h⟩ | ⟨-, h⟩ := kbdPoll_cases s
  · simp [h, hi]
  · simp [h]

/-- The poll writes no cell but the two keyboard cells. -/
theorem kbdPoll_cellRead_other (s : State) (a : Word) (hs : a ≠ s.cfg.kbsrAddr)
    (hd : a ≠ s.cfg.kbdrAddr) : cellRead (kbdPoll s) a = cellRead s a := by
  obtain ⟨c, rest, -, -, h⟩ | ⟨-, h⟩ := kbdPoll_cases s <;>
    simp [h, memWrite_cellRead, hs, hd] <;> rfl

theorem kbdPoll_wf (s : State) (h : s.mem.wf) : (kbdPoll s).mem.wf := by
  obtain ⟨c, rest, -, -, e⟩ | ⟨-, e⟩ := kbdPoll_cases s <;> rw [e]
  · exact memWrite_wf _ _ _ (memWrite_wf _ _ _ h)
  · exact memWrite_wf _ _ _ h

/-! ### MemRead -/

theorem afterRead_kbsr (s : State) : afterRead s s.cfg.kbsrAddr = kbdPoll s := by simp [afterRead]

theorem afterRead_other (s : State) (a : Word) (h : a ≠ s.cfg.kbsrAddr) : afterRead s a = s := by
  simp [afterRead, h]

@[simp] theorem afterRead_regs (s : State) (a : Word) : (afterRead s a).regs = s.regs := by
  unfold afterRead; split <;> simp

@[simp] theorem afterRead_reg (s : State) (a : Word) (r : Reg) :
    (afterRead s a).reg r = s.reg r := by simp [State.reg]

@[simp] theorem afterRead_pc (s : State) (a : Word) : (afterRead s a).pc = s.pc := by
  unfold afterRead; split <;> simp

@[simp] theorem afterRead_cond (s : State) (a : Word) : (afterRead s a).cond = s.cond := by
  unfold afterRead; split <;> simp

@[simp] theorem afterRead_status (s : State) (a : Word) : (afterRead s a).status = s.status := by
  unfold afterRead; split <;> simp

@[simp] theorem afterRead_outSeq (s : State) (a : Word) : (afterRead s a).outSeq = s.outSeq := by
  unfold afterRead; split <;> simp

@[simp] theorem afterRead_cfg (s : State) (a : Word) : (afterRead s a).cfg = s.cfg := by
  unfold afterRead; split <;> simp

theorem afterRead_input (s : State) (a : Word) : (afterRead s a).input <:+ s.input := by
  unfold afterRead; split
  · exact kbdPoll_input s
  · exact List.suffix_rfl

theorem afterRead_cellRead_other (s : State) (a b : Word) (hs : b ≠ s.cfg.kbsrAddr)
    (hd : b ≠ s.cfg.kbdrAddr) : cellRead (afterRead s a) b = cellRead s b := by
  unfold afterRead; split
  · exact kbdPoll_cellRead_other s b hs hd
  · rfl

theorem afterRead_wf (s : State) (a : Word) (h : s.mem.wf) : (afterRead s a).mem.wf := by
  unfold afterRead; split
  · exact kbdPoll_wf s h
  · exact h

@[simp] theorem memRead_snd (s : State) (a : Word) : (memRead s a).2 = afterRead s a := rfl

theorem memRead_fst (s : State) (a : Word) :
    (memRead s a).1 = cellRead (afterRead s a) a := rfl

/-- A read of any address but KBSR_ADDR is plain (R42). -/
theorem memRead_other (s : State) (a : Word) (h : a ≠ s.cfg.kbsrAddr) :
    memRead s a = (cellRead s a, s) := by
  simp [memRead, afterRead_other s a h]

/-! ### Fetch -/

theorem fetch_snd (s : State) : (fetch s).2 = (afterRead s s.pc).setPc (s.pc + 1#16) := rfl

/-- A fetch from any address but KBSR_ADDR changes the PC alone. -/
theorem fetch_other (s : State) (h : s.pc ≠ s.cfg.kbsrAddr) :
    fetch s = (cellRead s s.pc, s.setPc (s.pc + 1#16)) := by
  simp [fetch, memRead_other s s.pc h]

/-! ### Characters -/

/-- `KbdTake`/`KbdWait` by cases. -/
theorem kbdTake_cases (s : State) :
    (s.input = [] ∧ kbdTake s = none) ∨
    (∃ c rest, s.input = c :: rest ∧ kbdTake s = some (c, { s with input := rest })) := by
  cases h : s.input with
  | nil => exact .inl ⟨rfl, by simp [kbdTake, h]⟩
  | cons c rest => exact .inr ⟨c, rest, rfl, by simp [kbdTake, h]⟩

end Sys2Proof.Machine
end

