-- ==== Sys2Proof/Laws/Trap.lean ====
section
/-! SUPPORT. The string walk and the service routines: everything each can do (44_trap R120 to R133). -/

namespace Sys2Proof.Machine

/-! ### The string walk -/

/-- The walk finds the cells before the first zero cell, if there is one among the first `n`. -/
theorem stringWithin_eq_some (m : Memory) (k n : Nat) (a : Word) (hk : k < n)
    (hz : m.read (a + BitVec.ofNat 16 k).toNat = 0x0000#16)
    (hnz : ∀ j < k, m.read (a + BitVec.ofNat 16 j).toNat ≠ 0x0000#16) :
    stringWithin m n a =
      some ((List.range k).map (fun j => m.read (a + BitVec.ofNat 16 j).toNat)) := by
  induction k generalizing n a with
  | zero =>
    obtain ⟨n, rfl⟩ : ∃ n', n = n' + 1 := ⟨n - 1, by omega⟩
    simp only [BitVec.add_zero] at hz
    simp [stringWithin, hz]
  | succ k ih =>
    obtain ⟨n, rfl⟩ : ∃ n', n = n' + 1 := ⟨n - 1, by omega⟩
    have shift : ∀ j, a + 1#16 + BitVec.ofNat 16 j = a + BitVec.ofNat 16 (j + 1) := fun j => by
      rw [BitVec.ofNat_add, BitVec.add_comm (BitVec.ofNat 16 j), ← BitVec.add_assoc]
    have h0 : m.read a.toNat ≠ 0x0000#16 := by simpa using hnz 0 (by omega)
    have rest := ih n (a + 1#16) (by omega) (by rw [shift]; exact hz)
      (fun j hj => by rw [shift]; exact hnz (j + 1) (by omega))
    rw [stringWithin, if_neg h0, rest, List.range_succ_eq_map]
    simp only [Option.map_some, List.map_cons, List.map_map]
    congr 2
    · simp
    · exact List.map_congr_left (fun j _ => by simp [shift])

/-- The walk gives up only where none of the first `n` cells is zero. -/
theorem stringWithin_eq_none (m : Memory) (n : Nat) (a : Word)
    (h : ∀ j < n, m.read (a + BitVec.ofNat 16 j).toNat ≠ 0x0000#16) :
    stringWithin m n a = none := by
  induction n generalizing a with
  | zero => rfl
  | succ n ih =>
    have h0 : m.read a.toNat ≠ 0x0000#16 := by simpa using h 0 (by omega)
    rw [stringWithin, if_neg h0, ih (a + 1#16) (fun j hj => ?_)]
    · rfl
    · have := h (j + 1) (by omega)
      rwa [BitVec.ofNat_add, BitVec.add_comm (BitVec.ofNat 16 j), ← BitVec.add_assoc] at this

/-! ### The routines by cases -/

/-- GETC's and IN's shared part: a character is taken, or the core waits. -/
theorem readChar_cases (s : State) (echo : Byte → List Byte) :
    (s.input = [] ∧ readChar s echo = .fault (.waitsForInput s)) ∨
    (∃ c rest, s.input = c :: rest ∧
      readChar s echo =
        .next (writeDest (emit { s with input := rest } (echo c)) 0#3 (zextByte c))) := by
  obtain ⟨hi, h⟩ | ⟨c, rest, hi, h⟩ := kbdTake_cases s
  · exact .inl ⟨hi, by simp [readChar, h]⟩
  · exact .inr ⟨c, rest, hi, by simp [readChar, h]⟩

/-- PUTS's and PUTSP's shared part: the string's bytes are emitted, or the walk never ends. -/
theorem emitString_cases (s : State) (bytes : Word → List Byte) :
    (stringAt s (s.reg 0#3) = none ∧ emitString s bytes = .fault .stringNeverEnds) ∨
    (∃ cells, stringAt s (s.reg 0#3) = some cells ∧
      emitString s bytes = .next (emit s (cells.flatMap bytes))) := by
  cases h : stringAt s (s.reg 0#3) with
  | none => exact .inl ⟨rfl, by simp [emitString, h]⟩
  | some cells => exact .inr ⟨cells, rfl, by simp [emitString, h]⟩

/-- What a service routine touches: R0, COND, INPUT, OUT_SEQ and the run status (R132). -/
theorem runService_frame (s t : State) (v : TrapService) (h : runService s v = .next t) :
    (∀ r, r ≠ 0#3 → t.reg r = s.reg r) ∧ t.pc = s.pc ∧ t.mem = s.mem ∧
      t.kbdDraws = s.kbdDraws ∧ t.kbdPolls = s.kbdPolls ∧ t.cfg = s.cfg ∧
      s.outSeq <+: t.outSeq ∧ t.input <:+ s.input := by
  cases v with
  | getc =>
    obtain ⟨-, e⟩ | ⟨c, rest, hi, e⟩ := readChar_cases s (fun _ => []) <;>
      simp only [runService, e] at h <;> cases h
    exact ⟨fun r hr => setReg_reg_other _ _ _ _ hr, rfl, rfl, rfl, rfl, rfl, by simp, by simp [hi]⟩
  | out => cases h; exact ⟨fun _ _ => rfl, rfl, rfl, rfl, rfl, rfl, by simp, by simp⟩
  | puts =>
    obtain ⟨-, e⟩ | ⟨cells, -, e⟩ := emitString_cases s (fun w => [lowByte w]) <;>
      simp only [runService, e] at h <;> cases h
    exact ⟨fun _ _ => rfl, rfl, rfl, rfl, rfl, rfl, by simp, by simp⟩
  | inChar =>
    obtain ⟨-, e⟩ | ⟨c, rest, hi, e⟩ := readChar_cases (emit s s.cfg.inPrompt) (fun c => [c]) <;>
      simp only [runService, e] at h <;> cases h
    refine ⟨fun r hr => setReg_reg_other _ _ _ _ hr, rfl, rfl, rfl, rfl, rfl, ?_, ?_⟩
    · simp
    · simp only [emit_input] at hi; simp [hi]
  | putsp =>
    obtain ⟨-, e⟩ | ⟨cells, -, e⟩ := emitString_cases s packedBytes <;>
      simp only [runService, e] at h <;> cases h
    exact ⟨fun _ _ => rfl, rfl, rfl, rfl, rfl, rfl, by simp, by simp⟩
  | halt => cases h; exact ⟨fun _ _ => rfl, rfl, rfl, rfl, rfl, rfl, by simp, by simp⟩

/-- TRAP by its vector: a service routine, or TrapError (R120, R128). -/
theorem execTrap_cases (vec : BitVec 8) (s : State) :
    (∃ v, trapService vec = some v ∧ execTrap vec s = runService s v) ∨
    (trapService vec = none ∧ execTrap vec s = .next (raise s (.trapError vec))) := by
  cases h : trapService vec with
  | none => exact .inr ⟨rfl, by simp [execTrap, h]⟩
  | some v => exact .inl ⟨v, rfl, by simp [execTrap, h]⟩

end Sys2Proof.Machine
end

