-- ==== Sys2Proof/Laws/Exec.lean ====
section
/-! SUPPORT. What exec, fetch and step do, said once by groups of instructions, so that a proof over all of them
needs one case for the services, one for the exceptions and one for each plain instruction. -/

namespace Sys2Proof.Machine

/-! ### Groups of instructions -/

/-- The vectors with no service routine (44_trap R120, R128). -/
theorem trapService_eq_none_iff (vec : BitVec 8) :
    trapService vec = none ↔ (vec.toNat < 0x20 ∨ 0x25 < vec.toNat) := by
  revert vec; decide

/-- An instruction that runs a service routine is that routine. -/
theorem exec_service (i : Instr) (v : TrapService) (s : State) (h : serviceOf i = some v) :
    exec i s = runService s v := by
  cases i <;> simp only [serviceOf, reduceCtorEq, Option.some.injEq] at h <;>
    first
    | (subst h; rfl)
    | (show execTrap _ s = _; unfold execTrap; rw [h])

/-- An instruction that raises an exception does only that. -/
theorem exec_cause (i : Instr) (c : Cause) (s : State) (h : causeOf i = some c) :
    exec i s = .next (raise s c) := by
  cases i <;> simp only [causeOf, Option.some.injEq, reduceCtorEq] at h <;> try (subst h; rfl)
  rename_i vec
  split at h
  · next hv =>
    cases h
    show execTrap vec s = _
    unfold execTrap; rw [(trapService_eq_none_iff vec).mpr hv]
  · cases h

/-! ### Strings -/

/-- The string at an address, from the first zero cell after it. -/
theorem stringAt_eq_some (s : State) (a : Word) (n : Nat) (hn : n < 65536)
    (hz : cellRead s (a + BitVec.ofNat 16 n) = 0x0000#16)
    (hnz : ∀ k < n, cellRead s (a + BitVec.ofNat 16 k) ≠ 0x0000#16) :
    stringAt s a = some ((List.range n).map (fun k => cellRead s (a + BitVec.ofNat 16 k))) :=
  stringWithin_eq_some s.mem n 65536 a hn hz hnz

/-- Where some cell is zero, the walk from any address meets a first one. -/
theorem exists_first_zero (s : State) (a : Word) (h : ∃ b, cellRead s b = 0x0000#16) :
    ∃ n < 65536, cellRead s (a + BitVec.ofNat 16 n) = 0x0000#16 ∧
      ∀ k < n, cellRead s (a + BitVec.ofNat 16 k) ≠ 0x0000#16 := by
  obtain ⟨b, hb⟩ := h
  have hex : ∃ n, cellRead s (a + BitVec.ofNat 16 n) = 0x0000#16 := ⟨(b - a).toNat, by
    rw [BitVec.ofNat_toNat, BitVec.setWidth_eq, BitVec.add_comm, BitVec.sub_add_cancel, hb]⟩
  have hle : Nat.find hex ≤ (b - a).toNat := Nat.find_min' hex (by
    rw [BitVec.ofNat_toNat, BitVec.setWidth_eq, BitVec.add_comm, BitVec.sub_add_cancel, hb])
  exact ⟨Nat.find hex, hle.trans_lt (b - a).isLt, Nat.find_spec hex, fun k hk => Nat.find_min hex hk⟩

/-- Where no cell is zero, there is no string. -/
theorem stringAt_eq_none (s : State) (a : Word) (h : ∀ b, cellRead s b ≠ 0x0000#16) :
    stringAt s a = none :=
  stringWithin_eq_none s.mem 65536 a (fun _ _ => h _)

/-! ### Fetch and step -/

@[simp] theorem fetch_pc (s : State) : (fetch s).2.pc = s.pc + 1#16 := rfl
@[simp] theorem fetch_regs (s : State) : (fetch s).2.regs = s.regs := by simp [fetch_snd]
@[simp] theorem fetch_reg (s : State) (r : Reg) : (fetch s).2.reg r = s.reg r := by simp [fetch_snd]
@[simp] theorem fetch_cond (s : State) : (fetch s).2.cond = s.cond := by simp [fetch_snd]
@[simp] theorem fetch_status (s : State) : (fetch s).2.status = s.status := by simp [fetch_snd]
@[simp] theorem fetch_outSeq (s : State) : (fetch s).2.outSeq = s.outSeq := by simp [fetch_snd]
@[simp] theorem fetch_cfg (s : State) : (fetch s).2.cfg = s.cfg := by simp [fetch_snd]

/-- A fetch takes nothing or, by its poll, the first character. -/
theorem fetch_input (s : State) : (fetch s).2.input <:+ s.input := afterRead_input s s.pc

theorem fetch_wf (s : State) (h : s.mem.wf) : (fetch s).2.mem.wf := afterRead_wf s s.pc h

/-- A running machine executes the word it fetched (R84). -/
theorem step_of_running (s : State) (h : s.status = .running) :
    step s = exec (decode (fetch s).1) (fetch s).2 := by
  unfold step; rw [h]

/-- What a step that answers a next state did. -/
theorem step_next (s t : State) (h : step s = .next t) :
    s.status = .running ∧ exec (decode (fetch s).1) (fetch s).2 = .next t := by
  unfold step at h; cases hs : s.status <;> simp_all

end Sys2Proof.Machine
end

