-- ==== Sys2Proof/Laws/Loader.lean ====
section
/-! SUPPORT. The loader's parts: placed words read back, the canonical form is kept, words from bytes (70_reset
R162 to R164). -/

namespace Sys2Proof.Machine

/-- A placed word reads back at its address, and every other address as before. -/
theorem placeWords_read (ws : List Word) (m : Memory) (o a : Nat) :
    (placeWords m o ws).read a =
      if o ≤ a ∧ a < o + ws.length then ws.getD (a - o) 0x0000#16 else m.read a := by
  induction ws generalizing m o with
  | nil => simp only [placeWords, List.length_nil]; rw [if_neg (by omega)]
  | cons w ws ih =>
    rw [placeWords, ih, Memory.read_write]
    by_cases h : a = o
    · subst h; simp
    · by_cases h2 : o + 1 ≤ a ∧ a < o + 1 + ws.length
      · rw [if_pos h2, if_pos (by simp; omega)]
        obtain ⟨k, hk⟩ : ∃ k, a - o = k + 1 := ⟨a - o - 1, by omega⟩
        rw [show a - (o + 1) = k by omega, hk]; simp
      · rw [if_neg h2, if_neg h, if_neg (by simp only [List.length_cons]; omega)]

theorem placeWords_wf (ws : List Word) (m : Memory) (o : Nat) (ho : o + ws.length ≤ 65536)
    (h : m.wf) : (placeWords m o ws).wf := by
  induction ws generalizing m o with
  | nil => exact h
  | cons w ws ih =>
    simp only [List.length_cons] at ho
    exact ih _ _ (by omega) (Memory.write_wf _ _ _ (by omega) h)

/-- A parsed image fits below 0x10000. -/
theorem parseImage_fits (b : List Byte) (img : Image) (h : parseImage b = some img) :
    img.origin.toNat + img.words.length ≤ 65536 := by
  unfold parseImage at h
  split at h <;> try cases h
  split at h <;> cases h
  assumption

/-- Bytes form words exactly when their number is even. -/
theorem bigEndianWords_eq_none_iff (b : List Byte) :
    bigEndianWords b = none ↔ b.length % 2 = 1 := by
  induction b using bigEndianWords.induct with
  | case1 => simp [bigEndianWords]
  | case2 => simp [bigEndianWords]
  | case3 hi lo rest ih => simp [bigEndianWords, ih]; omega

/-- Two bytes make one word. -/
theorem bigEndianWords_length (b : List Byte) (ws : List Word) (h : bigEndianWords b = some ws) :
    ws.length = b.length / 2 := by
  induction b using bigEndianWords.induct generalizing ws with
  | case1 => simp [bigEndianWords] at h; simp [h]
  | case2 => simp [bigEndianWords] at h
  | case3 hi lo rest ih =>
    simp only [bigEndianWords, Option.map_eq_some_iff] at h
    obtain ⟨a, h1, h2⟩ := h
    rw [← h2]; simp [ih a h1]; omega

end Sys2Proof.Machine
end

