-- ==== Sys2Proof/Tests/Slice0.lean ====
section
/-! SUPPORT. The model's own tests, and for every obligation with hypotheses a state and operands that meet them.
Expected values come from the words and vectors of spec/95_test_vectors (S<n>, V<n>) and the instruction
tables of R96, R105, R118, R133. -/

namespace Sys2Proof.Tests

open Sys2Proof.Machine

/-! ### Small states -/

/-- The reset state with a word at its program counter. -/
def at0 (w : Nat) : State := State.reset.withFetchWord 16 w

/-- The same with the word at another address and the program counter there. -/
def atPc (pc : Word) (w : Nat) : State := (State.reset.setPc pc).withFetchWord 16 w

/-- Cells written in order. -/
def cells (s : State) (ws : List (Word × Word)) : State := ws.foldl (fun s p => memWrite s p.1 p.2) s

/-- The input side as the host supplies it. -/
def typed (s : State) (cs : List Byte) (ds : List Bool) : State := withInput cs ds 0 s

/-- What is seen of the next state; none where the step stops. -/
def seen {α : Type} (f : State → α) (s : State) : Option α :=
  match step s with
  | .next t => some (f t)
  | .fault _ => none
  | .refused _ => none

/-- The machine with the other JSRR order. -/
def baseFirst (s : State) : State := { s with cfg := { s.cfg with jsrrLinkFirst := false } }

/-! ### WellFormed refuses one ill-formed term per check -/

theorem test_wf_jmpR7 : (Instr.jmp 7).wf = false ∧ (Instr.jmp 6).wf = true := by decide
theorem test_wf_trapService :
    (Instr.trap 0x20#8).wf = false ∧ (Instr.trap 0x25#8).wf = false ∧
    (Instr.trap 0x1F#8).wf = true ∧ (Instr.trap 0x26#8).wf = true := by decide

/-! ### Decoding: a word for every constructor -/

theorem test_decode_addReg : decode 0b0001_000_001_0_00_010#16 = .addReg 0 1 2 := by decide
theorem test_decode_addReg_unused : decode 0x105A#16 = .addReg 0 1 2 := by decide
theorem test_decode_addImm : decode 0b0001_000_001_1_11101#16 = .addImm 0 1 0b11101#5 := by decide
theorem test_decode_andReg : decode 0b0101_000_001_0_00_010#16 = .andReg 0 1 2 := by decide
theorem test_decode_andImm : decode 0b0101_011_011_1_00000#16 = .andImm 3 3 0 := by decide
theorem test_decode_not : decode 0b1001_101_100_111111#16 = .not 5 4 := by decide
theorem test_decode_not_unused : decode 0x9B00#16 = .not 5 4 := by decide
theorem test_decode_br : decode 0b0000_010_000000010#16 = .br false true false 2 := by decide
theorem test_decode_br_all : decode 0x0FFF#16 = .br true true true 0x1FF#9 := by decide
theorem test_decode_jmp : decode 0b1100_000_010_000000#16 = .jmp 2 := by decide
theorem test_decode_ret : decode 0b1100_000_111_000000#16 = .ret := by decide
theorem test_decode_jsr : decode 0b0100_1_00000010000#16 = .jsr 16 := by decide
theorem test_decode_jsrr : decode 0b0100_0_00_011_000000#16 = .jsrr 3 := by decide
theorem test_decode_ld : decode 0b0010_001_000000101#16 = .ld 1 5 := by decide
theorem test_decode_ldi : decode 0b1010_010_000000001#16 = .ldi 2 1 := by decide
theorem test_decode_ldr : decode 0b0110_010_000_000000#16 = .ldr 2 0 0 := by decide
theorem test_decode_lea : decode 0b1110_000_000000001#16 = .lea 0 1 := by decide
theorem test_decode_st : decode 0b0011_001_111111110#16 = .st 1 0x1FE#9 := by decide
theorem test_decode_sti : decode 0b1011_011_000000011#16 = .sti 3 3 := by decide
theorem test_decode_str : decode 0b0111_001_110_111111#16 = .str 1 6 0x3F#6 := by decide
theorem test_decode_trap : decode 0xF026#16 = .trap 0x26#8 ∧ decode 0xF01F#16 = .trap 0x1F#8 := by
  decide
theorem test_decode_getc : decode 0xF020#16 = .getc := by decide
theorem test_decode_out : decode 0xF021#16 = .out := by decide
theorem test_decode_puts : decode 0xF022#16 = .puts := by decide
theorem test_decode_in : decode 0xF023#16 = .inChar := by decide
theorem test_decode_putsp : decode 0xF024#16 = .putsp := by decide
theorem test_decode_halt : decode 0xF025#16 = .halt ∧ decode 0xF125#16 = .halt := by decide
theorem test_decode_noHandler8 : decode 0x8000#16 = .noHandler8 ∧ decode 0x8FFF#16 = .noHandler8 := by
  decide
theorem test_decode_noHandlerD : decode 0xD123#16 = .noHandlerD := by decide
theorem test_encode_words :
    encode (.addReg 0 1 2) = 0x1042#16 ∧ encode (.not 5 4) = 0x9B3F#16 ∧
    encode (.br true true true 0x1FF#9) = 0x0FFF#16 ∧ encode .ret = 0xC1C0#16 ∧
    encode (.jsrr 7) = 0x41C0#16 ∧ encode .halt = 0xF025#16 := by decide
theorem test_decodeTableWord :
    decodeTableWord 16 0x33FE = some (.st 1 0x1FE#9) ∧ decodeTableWord 32 0 = none := by decide

/-! ### One step of each instruction -/

theorem test_addReg_overflow : seen (fun t => (t.reg 0, t.cond))
    (((at0 0x1042).setReg 1 0x7FFF#16).setReg 2 0x0001#16) = some (0x8000#16, .negative) := by decide
theorem test_addReg_same : seen (fun t => (t.reg 1, t.cond))
    ((at0 0x1241).setReg 1 0x4000#16) = some (0x8000#16, .negative) := by decide
theorem test_addImm_minus3 : seen (fun t => (t.reg 0, t.cond))
    ((at0 0x107D).setReg 1 0x0005#16) = some (0x0002#16, .positive) := by decide
theorem test_addImm_minus16 : seen (fun t => (t.reg 0, t.cond))
    ((at0 0x1030).setReg 0 0x0005#16) = some (0xFFF5#16, .negative) := by decide
theorem test_andReg : seen (fun t => (t.reg 0, t.cond))
    (((at0 0x5042).setReg 1 0x000A#16).setReg 2 0x0006#16) = some (0x0002#16, .positive) := by decide
theorem test_andImm_minus1 : seen (fun t => (t.reg 0, t.cond))
    ((at0 0x507F).setReg 1 0x1234#16) = some (0x1234#16, .positive) := by decide
theorem test_andImm_15 : seen (fun t => (t.reg 0, t.cond))
    ((at0 0x506F).setReg 1 0xFFF0#16) = some (0x0000#16, .zero) := by decide
theorem test_not_same : seen (fun t => (t.reg 4, t.cond))
    ((at0 0x993F).setReg 4 0x0F0F#16) = some (0xF0F0#16, .negative) := by decide
theorem test_br_masks :
    seen State.pc (at0 0x0402) = some 0x3003#16 ∧ seen State.pc (at0 0x0A02) = some 0x3001#16 ∧
    seen State.pc { at0 0x0802 with cond := .negative } = some 0x3003#16 ∧
    seen State.pc { at0 0x0202 with cond := .positive } = some 0x3003#16 ∧
    seen State.pc { at0 0x0602 with cond := .negative } = some 0x3001#16 := by decide
theorem test_br_wraps :
    seen State.pc (atPc 0xFFFF#16 0x0E01) = some 0x0001#16 ∧
    seen State.pc (atPc 0x0000#16 0x0FFE) = some 0xFFFF#16 ∧
    seen State.pc (atPc 0xFFFF#16 0x0000) = some 0x0000#16 := by decide
theorem test_jmp : seen State.pc ((at0 0xC080).setReg 2 0x4000#16) = some 0x4000#16 := by decide
theorem test_ret : seen State.pc ((at0 0xC1C0).setReg 7 0x3005#16) = some 0x3005#16 := by decide
theorem test_jsr : seen (fun t => (t.reg 7, t.pc)) (at0 0x4C00) = some (0x3001#16, 0x2C01#16) := by
  decide
theorem test_jsrr : seen (fun t => (t.reg 7, t.pc))
    ((at0 0x40C0).setReg 3 0x5000#16) = some (0x3001#16, 0x5000#16) := by decide
theorem test_jsrr_r7 :
    seen (fun t => (t.reg 7, t.pc)) ((at0 0x41C0).setReg 7 0x6000#16) =
      some (0x3001#16, 0x3001#16) ∧
    seen (fun t => (t.reg 7, t.pc)) (baseFirst ((at0 0x41C0).setReg 7 0x6000#16)) =
      some (0x3001#16, 0x6000#16) := by decide
theorem test_ld : seen (fun t => (t.reg 1, t.cond))
    (cells (at0 0x2205) [(0x3006#16, 0x8000#16)]) = some (0x8000#16, .negative) := by decide
theorem test_ld_wraps : seen (fun t => (t.reg 1, t.cond))
    (cells (atPc 0xFFFF#16 0x2205) [(0x0005#16, 0x0011#16)]) = some (0x0011#16, .positive) := by
  decide
theorem test_ldi : seen (fun t => (t.reg 2, t.cond))
    (cells (at0 0xA401) [(0x3002#16, 0x4000#16), (0x4000#16, 0xBEEF#16)]) =
      some (0xBEEF#16, .negative) := by decide
theorem test_ldi_polls : seen (fun t => (t.reg 2, cellRead t 0xFE02#16, t.input))
    (typed (cells (at0 0xA401) [(0x3002#16, 0xFE00#16)]) [0x41#8] [true]) =
      some (0x8000#16, 0x0041#16, []) := by decide
theorem test_ldr_same : seen (fun t => (t.reg 2, t.cond))
    (cells ((at0 0x64BF).setReg 2 0x4001#16) [(0x4000#16, 0x1111#16)]) =
      some (0x1111#16, .positive) := by decide
theorem test_ldr_wraps : seen (fun t => (t.reg 0, t.cond))
    (cells ((at0 0x605F).setReg 1 0xFFF0#16) [(0x000F#16, 0x0002#16)]) =
      some (0x0002#16, .positive) := by decide
theorem test_lea : seen (fun t => (t.reg 0, t.cond)) (at0 0xE100) = some (0x2F01#16, .positive) := by
  decide
theorem test_lea_flags : seen (fun t => (t.reg 0, t.cond)) (atPc 0x7FFF#16 0xE000) =
    some (0x8000#16, .negative) := by decide
theorem test_st : seen (fun t => (cellRead t 0x2FFF#16, t.cond))
    ((at0 0x33FE).setReg 1 0x1234#16) = some (0x1234#16, .zero) := by decide
theorem test_st_itself : seen (fun t => (cellRead t 0x3000#16, t.pc, t.status))
    ((at0 0x33FF).setReg 1 0xF025#16) = some (0xF025#16, 0x3001#16, .running) := by decide
theorem test_sti : seen (fun t => cellRead t 0x5000#16)
    ((cells (at0 0xB603) [(0x3004#16, 0x5000#16)]).setReg 3 0xAAAA#16) = some 0xAAAA#16 := by decide
theorem test_str : seen (fun t => cellRead t 0x3FFF#16)
    (((at0 0x73BF).setReg 6 0x4000#16).setReg 1 0x0009#16) = some 0x0009#16 := by decide
theorem test_str_kbsr : seen (fun t => (cellRead t 0xFE00#16, t.kbdPolls))
    (((at0 0x73C0).setReg 7 0xFE00#16).setReg 1 0x7777#16) = some (0x7777#16, 0) := by decide
theorem test_trap_noService :
    seen (fun t => (t.status, t.pc)) (at0 0xF026) =
      some (.faulted (.trapError 0x26#8) 0x3000#16, 0x3001#16) ∧
    seen State.status (at0 0xF0FF) = some (.faulted (.trapError 0xFF#8) 0x3000#16) := by decide
theorem test_getc : seen (fun t => (t.reg 0, t.cond, t.input, t.outSeq))
    (typed (at0 0xF020) [0x61#8] []) = some (0x0061#16, .positive, [], []) := by decide
theorem test_getc_nul : seen (fun t => (t.reg 0, t.cond))
    ((typed (at0 0xF020) [0x00#8] []).setReg 0 1) = some (0x0000#16, .zero) := by decide
theorem test_out : seen State.outSeq ((at0 0xF021).setReg 0 0x1241#16) = some [0x41#8] := by decide
theorem test_puts : seen State.outSeq (cells ((at0 0xF022).setReg 0 0x4000#16)
    [(0x4000#16, 0x0048#16), (0x4001#16, 0x2149#16)]) = some [0x48#8, 0x49#8] := by decide
theorem test_puts_wraps : seen State.outSeq (cells ((at0 0xF022).setReg 0 0xFFFF#16)
    [(0xFFFF#16, 0x0041#16)]) = some [0x41#8] := by decide
theorem test_in : seen (fun t => (t.outSeq, t.reg 0, t.cond)) (typed (at0 0xF023) [0x37#8] []) =
    some ([0x45#8, 0x6E#8, 0x74#8, 0x65#8, 0x72#8, 0x20#8, 0x61#8, 0x20#8, 0x63#8, 0x68#8, 0x61#8,
      0x72#8, 0x61#8, 0x63#8, 0x74#8, 0x65#8, 0x72#8, 0x3A#8, 0x20#8, 0x37#8],
      0x0037#16, .positive) := by decide
theorem test_putsp : seen State.outSeq (cells ((at0 0xF024).setReg 0 0x4000#16)
    [(0x4000#16, 0x6948#16), (0x4001#16, 0x0021#16)]) = some [0x48#8, 0x69#8, 0x21#8] := by decide
theorem test_putsp_lowZero : seen State.outSeq (cells ((at0 0xF024).setReg 0 0x4000#16)
    [(0x4000#16, 0x4100#16)]) = some [0x00#8, 0x41#8] := by decide
theorem test_halt : seen (fun t => (t.status, t.pc)) (at0 0xF025) = some (.halted, 0x3001#16) := by
  decide
theorem test_noHandler8 : seen (fun t => (t.status, t.pc)) (at0 0x8FFF) =
    some (.faulted (.decodeError 0x8#4) 0x3000#16, 0x3001#16) := by decide
theorem test_noHandlerD : seen (fun t => (t.status, t.pc)) (atPc 0xFFFF#16 0xD000) =
    some (.faulted (.decodeError 0xD#4) 0xFFFF#16, 0x0000#16) := by decide

/-! ### Operations -/

theorem test_sext : sext16 0b10000#5 = 0xFFF0#16 ∧ sext16 0b01111#5 = 0x000F#16 ∧
    sext16 0b100000#6 = 0xFFE0#16 ∧ sext16 0x100#9 = 0xFF00#16 ∧ sext16 0x0FF#9 = 0x00FF#16 ∧
    sext16 0x400#11 = 0xFC00#16 := by decide
theorem test_flags : flagsOf 0x0000#16 = .zero ∧ flagsOf 0x0001#16 = .positive ∧
    flagsOf 0x7FFF#16 = .positive ∧ flagsOf 0x8000#16 = .negative ∧
    flagsOf 0xFFFF#16 = .negative := by decide
theorem test_poll_ready :
    (memRead (typed State.reset [0x71#8] [true]) 0xFE00#16).1 = 0x8000#16 ∧
    cellRead (memRead (typed State.reset [0x71#8] [true]) 0xFE00#16).2 0xFE02#16 = 0x0071#16 := by
  decide
theorem test_poll_notReady :
    (memRead (cells (typed State.reset [0x71#8] [false]) [(0xFE00#16, 0x7777#16)]) 0xFE00#16).1 =
      0x0000#16 := by decide
theorem test_memory_canonical :
    (cells State.reset [(2, 5), (1, 7), (2, 0)]).mem = [(1, 0x0007#16)] := by decide
theorem test_image : parseImage [0x30#8, 0x00#8, 0xF0#8, 0x25#8] = some ⟨0x3000#16, [0xF025#16]⟩ ∧
    parseImage [0x30#8, 0x00#8, 0xF0#8] = none ∧ parseImage [] = none ∧
    parseImage [0xFF#8, 0xFF#8, 0x00#8, 0x01#8, 0x00#8, 0x02#8] = none := by decide

/-! ### Every obligation with hypotheses has a state and operands that meet them

Where a statement has several clauses, one part per clause, at the ends of its ranges. -/

/-- Memory with the word 1 in every cell. -/
def onesFrom (as : List Nat) : Memory := as.map (fun a => (a, 0x0001#16))

theorem onesFrom_read (as : List Nat) (a : Nat) (h : a ∈ as) : (onesFrom as).read a = 0x0001#16 := by
  induction as with
  | nil => cases h
  | cons b as ih =>
    by_cases hb : b = a
    · simp [onesFrom, Memory.read, hb]
    · have := ih ((List.mem_cons.mp h).resolve_left (fun e => hb e.symm))
      simpa [onesFrom, Memory.read, hb] using this

/-- A state in which no cell is zero. -/
def noZeroCell : State := { State.reset with mem := onesFrom (List.range 65536) }

theorem noZeroCell_cells : ∀ a, cellRead noZeroCell a ≠ 0x0000#16 := fun a => by
  have := onesFrom_read (List.range 65536) a.toNat (List.mem_range.mpr a.isLt)
  simp only [cellRead, noZeroCell, this]; decide

/-- Running at KBSR_ADDR with a character available: the fetch's poll gives the word 0x8000. -/
def atKbsr : State := typed (State.reset.setPc 0xFE00#16) [0x61#8] [true]

theorem witness_SignAndZeroExtension : 5 ∈ [5, 6, 9, 11] ∧ 11 ∈ [5, 6, 9, 11] ∧ 15 < 16 := by decide
theorem witness_NotAddOneAddSubtracts : (3 : Reg) ≠ 1 ∧ (0 : Reg) ≠ 7 := by decide

theorem witness_Branch :
    (true = true ∧ ({ at0 0 with cond := .negative } : State).cond = .negative) ∧
    (true = true ∧ (at0 0).cond = .zero) ∧
    (true = true ∧ ({ at0 0 with cond := .positive } : State).cond = .positive) ∧
    ¬ ((true = true ∧ (at0 0).cond = .negative) ∨ (false = true ∧ (at0 0).cond = .zero) ∨
      (true = true ∧ (at0 0).cond = .positive)) := by decide

theorem witness_Jsrr : (6 : Reg) ≠ 7#3 ∧ ((7 : Reg) = 7#3 ∧ (at0 0).cfg.jsrrLinkFirst = true) ∧
    ((7 : Reg) = 7#3 ∧ (baseFirst (at0 0)).cfg.jsrrLinkFirst = false) := by decide

theorem witness_LdLdiLdrSti :
    (at0 0).pc + sext16 5#9 ≠ (at0 0).cfg.kbsrAddr ∧
    cellRead (at0 0) ((at0 0).pc + sext16 5#9) ≠ (at0 0).cfg.kbsrAddr ∧
    (at0 0).reg 1 + sext16 0x3F#6 ≠ (at0 0).cfg.kbsrAddr := by decide

/-- For TrapDispatchesOnTheVector and DecodeFollowsTheFieldLayouts: the ends of the two ranges. -/
theorem witness_TrapDispatches : ((0x1F#8).toNat < 0x20 ∨ 0x25 < (0x1F#8).toNat) ∧
    ((0x26#8).toNat < 0x20 ∨ 0x25 < (0x26#8).toNat) ∧
    ((0x00#8).toNat < 0x20 ∨ 0x25 < (0x00#8).toNat) ∧
    ((0xFF#8).toNat < 0x20 ∨ 0x25 < (0xFF#8).toNat) := by decide

/-- One state meets every premise for every vector of the range. -/
theorem witness_TrapCompletes : ∀ vec : BitVec 8, 0x20 ≤ vec.toNat → vec.toNat ≤ 0x25 →
    (vec = 0x20#8 ∨ vec = 0x23#8 → (typed State.reset [0x61#8] []).input ≠ []) ∧
    (vec = 0x22#8 ∨ vec = 0x24#8 → ∃ a, cellRead (typed State.reset [0x61#8] []) a = 0x0000#16) :=
  fun _ _ _ => ⟨fun _ => by decide, fun _ => ⟨0, rfl⟩⟩

theorem witness_GetcIn : (typed State.reset [0x00#8, 0x61#8] []).input = 0x00#8 :: [0x61#8] ∧
    State.reset.input = [] := by decide

/-- "HI" at 0x4000, in the state a PUTS or PUTSP runs on; and the empty string. -/
theorem witness_PutsPutsp :
    let s := cells (State.reset.setReg 0 0x4000#16) [(0x4000#16, 0x0048#16), (0x4001#16, 0x0049#16)]
    (2 < 65536 ∧ cellRead s (s.reg 0#3 + BitVec.ofNat 16 2) = 0x0000#16 ∧
      ∀ k < 2, cellRead s (s.reg 0#3 + BitVec.ofNat 16 k) ≠ 0x0000#16) ∧
    (0 < 65536 ∧ cellRead State.reset (State.reset.reg 0#3 + BitVec.ofNat 16 0) = 0x0000#16 ∧
      ∀ k < 0, cellRead State.reset (State.reset.reg 0#3 + BitVec.ofNat 16 k) ≠ 0x0000#16) := by
  decide

theorem witness_StringRoutines :
    (∃ a, cellRead State.reset a = 0x0000#16) ∧ ∀ a, cellRead noZeroCell a ≠ 0x0000#16 :=
  ⟨⟨0, rfl⟩, noZeroCell_cells⟩

theorem witness_ServiceRoutines :
    (serviceOf .getc = some .getc ∧ ∃ t, exec .getc (typed State.reset [0x61#8] []) = .next t) ∧
    (serviceOf (.trap 0x21#8) = some .out ∧ ∃ t, exec (.trap 0x21#8) State.reset = .next t) ∧
    (serviceOf .halt = some .halt ∧ ∃ t, exec .halt State.reset = .next t) :=
  ⟨⟨rfl, _, rfl⟩, ⟨rfl, _, rfl⟩, ⟨rfl, _, rfl⟩⟩

theorem witness_FaultsArePrecise :
    ((at0 0xD000).status = .running ∧ (at0 0xD000).pc ≠ (at0 0xD000).cfg.kbsrAddr ∧
      causeOf (decode (fetch (at0 0xD000)).1) = some (.decodeError 0xD#4)) ∧
    (atKbsr.status = .running ∧ atKbsr.pc = atKbsr.cfg.kbsrAddr ∧
      causeOf (decode (fetch atKbsr).1) = some (.decodeError 0x8#4)) := by decide

theorem witness_OnlyARunning : (haltRun State.reset).status ≠ .running ∧
    (raise State.reset (.trapError 0#8)).status ≠ .running ∧ State.reset.status = .running := by decide

/-- A step to a next state that ends the run with success, by either exception, and not at all: for
RunsEndOnlyByHaltOrException, ExitStatusAndDiagnosticFollowTheEnd, OutputGrowsInputShrinksParametersStay. -/
theorem witness_steps :
    (∃ t, step (at0 0xF025) = .next t ∧ Succeeded t ∧ (at0 0xF025).cfg.exitsOk = true) ∧
    (∃ t, step (at0 0x8000) = .next t ∧ Failed t ∧
      causeOf (decode (fetch (at0 0x8000)).1) = some (.decodeError 0x8#4)) ∧
    (∃ t, step (at0 0xF0FF) = .next t ∧ Failed t ∧
      causeOf (decode (fetch (at0 0xF0FF)).1) = some (.trapError 0xFF#8)) ∧
    (∃ t, step (at0 0x1042) = .next t ∧ t.status = .running) :=
  ⟨⟨_, rfl, rfl, rfl⟩, ⟨_, rfl, ⟨_, _, rfl⟩, rfl⟩, ⟨_, rfl, ⟨_, _, rfl⟩, rfl⟩, ⟨_, rfl, rfl⟩⟩

theorem witness_MemRead : (0xFE02#16 : Word) ≠ State.reset.cfg.kbsrAddr := by decide

theorem witness_Poll :
    (atKbsr.input = 0x61#8 :: [] ∧ atKbsr.nextDraw = true) ∧ State.reset.input = [] ∧
    (typed State.reset [0x61#8] [false]).nextDraw = false ∧ atKbsr.kbdDraws = true :: [] := by decide

theorem witness_Polled : (typed State.reset [0x61#8, 0x62#8] [true]).input = 0x61#8 :: 0x62#8 :: [] ∧
    (typed State.reset [0x61#8, 0x62#8] [true]).nextDraw = true := by decide

/-- `ST R1, #0` stores to the next instruction's cell, `ST R1, #-1` to its own. -/
theorem witness_StoreIsSeen :
    ((at0 0x3200).status = .running ∧ (at0 0x3200).pc ≠ (at0 0x3200).cfg.kbsrAddr ∧
      (at0 0x3200).pc + 1#16 ≠ (at0 0x3200).cfg.kbsrAddr ∧
      decode (cellRead (at0 0x3200) (at0 0x3200).pc) = .st 1 0) ∧
    decode (cellRead (at0 0x33FF) (at0 0x33FF).pc) = .st 1 0x1FF#9 := by decide

theorem witness_Canonical : ∃ m n : Memory, m.wf ∧ n.wf ∧ (∀ a, a < 65536 → m.read a = n.read a) ∧
    m ≠ [] :=
  ⟨(Memory.write [] 1 5).write 2 6, (Memory.write [] 2 6).write 1 5, by decide, by decide,
    fun _ _ => rfl, by decide⟩

theorem witness_StepRuns :
    ((at0 0x1042).status = .running ∧ (at0 0x1042).pc ≠ (at0 0x1042).cfg.kbsrAddr ∧
      (Instr.addReg 0 1 2).wf = true ∧
      cellRead (at0 0x1042) (at0 0x1042).pc = encode (.addReg 0 1 2)) ∧
    (atKbsr.status = .running ∧ atKbsr.pc = atKbsr.cfg.kbsrAddr) := by decide

/-- A step to a next state for each arm of the PC rule, and the PC at its last value. -/
theorem witness_ThePcAdvances :
    (∃ t, step (at0 0x0E01) = .next t) ∧ (∃ t, step (at0 0xC080) = .next t) ∧
    (∃ t, step (at0 0xC1C0) = .next t) ∧ (∃ t, step (at0 0x4810) = .next t) ∧
    (∃ t, step (at0 0x41C0) = .next t) ∧ (∃ t, step (at0 0xE001) = .next t) ∧
    (State.reset.setPc 0xFFFF#16).pc = 0xFFFF#16 :=
  ⟨⟨_, rfl⟩, ⟨_, rfl⟩, ⟨_, rfl⟩, ⟨_, rfl⟩, ⟨_, rfl⟩, ⟨_, rfl⟩, rfl⟩

/-- For CondIsWrittenAndReadAsListed and OnlyListedRegistersAreWritten. -/
theorem witness_CondRegs :
    ((∃ t, exec (.lea 0 1) State.reset = .next t) ∧ flagSource (.lea 0 1) = some 0) ∧
    ((∃ t, exec (.str 0 1 2) State.reset = .next t) ∧ flagSource (.str 0 1 2) = none) ∧
    (∀ n z p off9, Instr.lea 0 1 ≠ .br n z p off9) ∧
    (∃ t, exec (.trap 0x20#8) (typed State.reset [0x61#8] []) = .next t) :=
  ⟨⟨⟨_, rfl⟩, rfl⟩, ⟨⟨_, rfl⟩, rfl⟩, fun _ _ _ _ => by simp, ⟨_, rfl⟩⟩

/-- For OnlyStoresAndPollsChangeCells: a store and a poll, a cell beside each, and an instruction that
reads no KBSR_ADDR. -/
theorem witness_Cells :
    (∃ t, exec (.st 0 0) State.reset = .next t) ∧
    storeAddr State.reset (.st 0 0) ≠ some 0x4000#16 ∧
    State.reset.cfg.kbsrAddr ∉ readAddrs State.reset (.st 0 0) ∧
    serviceOf (.st 0 0) ≠ some .getc ∧ serviceOf (.st 0 0) ≠ some .inChar ∧
    (∃ t, exec (.ldr 0 1 0) (State.reset.setReg 1 0xFE00#16) = .next t) ∧
    State.reset.cfg.kbsrAddr ∈ readAddrs (State.reset.setReg 1 0xFE00#16) (.ldr 0 1 0) ∧
    storeAddr State.reset (.ldr 0 1 0) ≠ some 0xFE01#16 ∧
    (0xFE01#16 ≠ State.reset.cfg.kbsrAddr ∧ 0xFE01#16 ≠ State.reset.cfg.kbdrAddr) :=
  ⟨⟨_, rfl⟩, by decide, by decide, by decide, by decide, ⟨_, rfl⟩, by decide, by decide, by decide⟩

theorem witness_StepKeepsMemoryCanonical :
    CanonicalMemory (at0 0x3200) ∧ ∃ t, step (at0 0x3200) = .next t :=
  ⟨(by decide : (at0 0x3200).mem.wf), ⟨_, rfl⟩⟩

theorem witness_InputIsUnseen :
    (at0 0x2205).pc ≠ (at0 0x2205).cfg.kbsrAddr ∧
    (at0 0x2205).cfg.kbsrAddr ∉
      readAddrs (fetch (at0 0x2205)).2 (decode (fetch (at0 0x2205)).1) ∧
    serviceOf (decode (fetch (at0 0x2205)).1) ≠ some .getc ∧
    serviceOf (decode (fetch (at0 0x2205)).1) ≠ some .inChar ∧
    ∃ t, step (at0 0x2205) = .next t :=
  ⟨by decide, by decide, by decide, by decide, ⟨_, rfl⟩⟩

theorem witness_DecodeOfEncode : (Instr.jmp 6).wf = true ∧ (Instr.trap 0x1F#8).wf = true ∧
    (Instr.trap 0x26#8).wf = true ∧ Instr.ret.wf = true := by decide

/-- Words that differ only in unused bits agree in the used ones; words that differ in a used bit do not. -/
theorem witness_WordsDecodeAlike :
    0x105A#16 &&& usedMask (decode 0x1042#16) = 0x1042#16 &&& usedMask (decode 0x1042#16) ∧
    0x1062#16 &&& usedMask (decode 0x1042#16) ≠ 0x1042#16 &&& usedMask (decode 0x1042#16) := by decide

theorem witness_Images : (0xFFFF#16).toNat + [0xF025#16].length ≤ 65536 ∧
    (0xFFFF#16).toNat + [0xF025#16].length = 65536 := by decide

/-- Two images on one cell; the second file is last. -/
theorem witness_Launch :
    let files := [some [0x30#8, 0x00#8, 0xF0#8, 0x25#8], some [0x30#8, 0x00#8, 0x10#8, 0x42#8]]
    files ≠ [] ∧ files.map (fun f => f.bind parseImage) =
      [(⟨0x3000#16, [0xF025#16]⟩ : Image), ⟨0x3000#16, [0x1042#16]⟩].map some := by decide

theorem witness_BadImages :
    [(none : Option (List Byte))] ≠ [] ∧
    (∃ f ∈ [(none : Option (List Byte))], f.bind parseImage = none) ∧
    defaultConfig.exitsOk = true := by decide

/-- A configuration in which HALT and a fault would exit alike does not meet R170's constraints. -/
theorem test_exitsOk_separates_halt_from_fault :
    Config.exitsOk { defaultConfig with exitHalt := 1 } = false := by decide

theorem witness_LaunchedMemory :
    ∃ s, launch defaultConfig [some [0x30#8, 0x00#8, 0xF0#8, 0x25#8]] [] [] = .ok s :=
  ⟨_, rfl⟩

end Sys2Proof.Tests
end

