-- ==== Sys2Proof/Proofs/Extension.lean ====
section
/-! PROOFS. Sign and zero extension, bit by bit and as values (00_scope R9). -/

namespace Sys2Proof.Machine

/-! ### Sign extension -/

theorem sext16_getLsbD {n i : Nat} (f : BitVec n) (hi : i < 16) :
    (sext16 f).getLsbD i = if i < n then f.getLsbD i else f.getLsbD (n - 1) := by
  rw [sext16, BitVec.getLsbD_signExtend, BitVec.msb_eq_getLsbD_last]
  simp only [hi, decide_true, Bool.true_and]

theorem sext16_toInt {n : Nat} (f : BitVec n) (hn : n ≤ 16) : (sext16 f).toInt = f.toInt :=
  BitVec.toInt_signExtend_of_le hn

/-! ### Zero extension of a character -/

theorem zextByte_getLsbD {i : Nat} (c : Byte) (hi : i < 16) :
    (zextByte c).getLsbD i = if i < 8 then c.getLsbD i else false := by
  have above : ¬ i < 8 → c.getLsbD i = false := fun h => c.getLsbD_of_ge i (by omega)
  rw [zextByte, BitVec.getLsbD_setWidth]
  split
  · simp [hi]
  · next h => simp [above h]

@[simp] theorem zextByte_toNat (c : Byte) : (zextByte c).toNat = c.toNat :=
  BitVec.toNat_setWidth_of_le (by decide)

/-- Settles O1: each width is at most 16, so the laws of the two extensions apply. -/
theorem signAndZeroExtensionAreExact : Obligations.SignAndZeroExtensionAreExact := by
  have width_le : ∀ n ∈ [5, 6, 9, 11], n ≤ 16 := by decide
  refine ⟨fun n hn f => ⟨fun i hi => ?_, ?_⟩, fun c => ⟨fun i hi => ?_, ?_⟩⟩
  · exact sext16_getLsbD f hi
  · exact sext16_toInt f (width_le n hn)
  · exact zextByte_getLsbD c hi
  · exact zextByte_toNat c

end Sys2Proof.Machine
end

/-! PROOFS. What an instruction does, by the five groups the instructions fall in: a service routine, an exception,
a register write, a store, a control transfer. -/

namespace Sys2Proof.Machine

/-! ### MemReads in order -/

/-- The state that MemReads of the addresses leave, one after the other. -/
def afterReads (s : State) (as : List Word) : State := as.foldl afterRead s

/-- What every MemRead leaves of the state, any number of them leave. -/
theorem afterReads_induction {P : State → Prop} (read : ∀ u a, P u → P (afterRead u a))
    (as : List Word) (s : State) (h : P s) : P (afterReads s as) := by
  induction as generalizing s with
  | nil => exact h
  | cons a as ih => exact ih (afterRead s a) (read s a h)

@[simp] theorem afterReads_reg (s : State) (as : List Word) (r : Reg) :
    (afterReads s as).reg r = s.reg r :=
  afterReads_induction (P := fun u => u.reg r = s.reg r) (by simp) as s rfl

@[simp] theorem afterReads_pc (s : State) (as : List Word) : (afterReads s as).pc = s.pc :=
  afterReads_induction (P := fun u => u.pc = s.pc) (by simp) as s rfl

@[simp] theorem afterReads_cond (s : State) (as : List Word) : (afterReads s as).cond = s.cond :=
  afterReads_induction (P := fun u => u.cond = s.cond) (by simp) as s rfl

@[simp] theorem afterReads_outSeq (s : State) (as : List Word) :
    (afterReads s as).outSeq = s.outSeq :=
  afterReads_induction (P := fun u => u.outSeq = s.outSeq) (by simp) as s rfl

@[simp] theorem afterReads_cfg (s : State) (as : List Word) : (afterReads s as).cfg = s.cfg :=
  afterReads_induction (P := fun u => u.cfg = s.cfg) (by simp) as s rfl

theorem afterReads_input (s : State) (as : List Word) : (afterReads s as).input <:+ s.input :=
  afterReads_induction (P := fun u => u.input <:+ s.input)
    (fun u a h => (afterRead_input u a).trans h) as s List.suffix_rfl

theorem afterReads_wf (s : State) (as : List Word) (h : s.mem.wf) : (afterReads s as).mem.wf :=
  afterReads_induction (P := fun u => u.mem.wf) afterRead_wf as s h

/-- MemReads off KBSR_ADDR change nothing (R42). -/
theorem afterReads_of_not_mem (s : State) (as : List Word) (h : s.cfg.kbsrAddr ∉ as) :
    afterReads s as = s := by
  induction as with
  | nil => rfl
  | cons a as ih =>
    rw [List.mem_cons, not_or] at h
    obtain ⟨ha, has⟩ := h
    rw [afterReads, List.foldl_cons, afterRead_other s a (Ne.symm ha)]
    exact ih has

/-! ### What each group writes

Each group's `_tables` lemma says what the model's tables (`destRegs`, `flagSource`, `storeAddr`) hold for it. -/

/-- DR and the value an operate instruction, a load or LEA writes to it (R90 to R94, R110 to R113). -/
def destWrite (s : State) : Instr → Option (Reg × Word)
  | .addReg dr sr1 sr2 => some (dr, s.reg sr1 + s.reg sr2)
  | .addImm dr sr1 imm5 => some (dr, s.reg sr1 + sext16 imm5)
  | .andReg dr sr1 sr2 => some (dr, s.reg sr1 &&& s.reg sr2)
  | .andImm dr sr1 imm5 => some (dr, s.reg sr1 &&& sext16 imm5)
  | .not dr sr => some (dr, ~~~ s.reg sr)
  | .ld dr off9 => some (dr, (memRead s (pcRel9 s off9)).1)
  | .ldi dr off9 =>
    some (dr, (memRead (afterRead s (pcRel9 s off9)) (memRead s (pcRel9 s off9)).1).1)
  | .ldr dr baseR off6 => some (dr, (memRead s (baseOff s baseR off6)).1)
  | .lea dr off9 => some (dr, pcRel9 s off9)
  | _ => none

/-- The address and the value of the MemWrite of ST, STI and STR (R114 to R116). -/
def storeWrite (s : State) : Instr → Option (Word × Word)
  | .st sr off9 => some (pcRel9 s off9, s.reg sr)
  | .sti sr off9 => some ((memRead s (pcRel9 s off9)).1, s.reg sr)
  | .str sr baseR off6 => some (baseOff s baseR off6, s.reg sr)
  | _ => none

/-- Where BR, JMP, RET, JSR and JSRR go on (R100 to R103); a branch not taken goes on at the incremented PC. -/
def controlTarget (s : State) : Instr → Option Word
  | .br n z p off9 => some (if branchTaken n z p s.cond then pcRel9 s off9 else s.pc)
  | .jmp baseR => some (s.reg baseR)
  | .ret => some (s.reg 7#3)
  | .jsr off11 => some (pcRel11 s off11)
  | .jsrr baseR => some (if baseR = 7#3 ∧ s.cfg.jsrrLinkFirst = true then s.pc else s.reg baseR)
  | _ => none

theorem destWrite_tables {s : State} {i : Instr} {dr : Reg} {v : Word}
    (h : destWrite s i = some (dr, v)) :
    destRegs i = [dr] ∧ flagSource i = some dr ∧ controlTarget s i = none := by
  cases i <;> cases h <;> exact ⟨rfl, rfl, rfl⟩

theorem storeWrite_tables {s : State} {i : Instr} {a v : Word} (h : storeWrite s i = some (a, v)) :
    storeAddr s i = some a ∧ flagSource i = none ∧ controlTarget s i = none := by
  cases i <;> cases h <;> exact ⟨rfl, rfl, rfl⟩

theorem controlTarget_tables {s : State} {i : Instr} {p : Word} (h : controlTarget s i = some p) :
    flagSource i = none ∧ (destRegs i = [] ∨ destRegs i = [7#3]) := by
  cases i <;> cases h <;> simp [flagSource, destRegs]

theorem causeOf_tables {i : Instr} {c : Cause} (h : causeOf i = some c) (s : State) :
    flagSource i = none ∧ controlTarget s i = none := by
  cases i <;> try cases h
  case trap vec =>
    refine ⟨if_neg ?_, rfl⟩
    rintro (rfl | rfl) <;> cases h
  all_goals exact ⟨rfl, rfl⟩

/-- The vectors of the two routines that take a character. -/
theorem trapService_takes_char_iff (vec : BitVec 8) :
    (trapService vec = some .getc ∨ trapService vec = some .inChar) ↔
      (vec = 0x20#8 ∨ vec = 0x23#8) := by
  revert vec; decide

/-- The routines that take a character write R0, and set COND from it; the others write neither (R121). -/
theorem serviceOf_tables {i : Instr} {v : TrapService} (h : serviceOf i = some v) (s : State) :
    (destRegs i = if v = .getc ∨ v = .inChar then [0#3] else []) ∧
    (flagSource i = if v = .getc ∨ v = .inChar then some 0#3 else none) ∧
    controlTarget s i = none := by
  cases i <;> try cases h
  case trap vec =>
    have hv := trapService_takes_char_iff vec
    rw [show trapService vec = some v from h, Option.some.injEq, Option.some.injEq] at hv
    simp only [destRegs, flagSource, controlTarget, hv, and_self]
  all_goals exact ⟨rfl, rfl, rfl⟩

/-! ### What exec does -/

theorem exec_dest {s : State} {i : Instr} {dr : Reg} {v : Word} (h : destWrite s i = some (dr, v)) :
    exec i s = .next (writeDest (afterReads s (readAddrs s i)) dr v) := by
  cases i <;> cases h <;> rfl

theorem exec_store {s : State} {i : Instr} {a v : Word} (h : storeWrite s i = some (a, v)) :
    exec i s = .next (memWrite (afterReads s (readAddrs s i)) a v) := by
  cases i <;> cases h
  case sti => simp [exec, execSti, afterReads, readAddrs]
  all_goals rfl

theorem exec_control {s : State} {i : Instr} {p : Word} (h : controlTarget s i = some p) :
    exec i s = .next ((if destRegs i = [] then s else link s).setPc p) := by
  cases i <;> cases h
  case br n z p off9 =>
    rw [exec, execBr]
    split <;> rfl
  case jsrr baseR =>
    have target : (if s.cfg.jsrrLinkFirst = true then (link s).reg baseR else s.reg baseR) =
        if baseR = 7#3 ∧ s.cfg.jsrrLinkFirst = true then s.pc else s.reg baseR := by
      rw [link_reg]; split_ifs <;> tauto
    rw [exec, execJsrr, target]; rfl
  all_goals rfl

/-- Every instruction is of one of the five groups (R83). -/
theorem instr_groups (s : State) (i : Instr) :
    (∃ v, serviceOf i = some v) ∨ (∃ c, causeOf i = some c) ∨
    (∃ dr v, destWrite s i = some (dr, v)) ∨ (∃ a v, storeWrite s i = some (a, v)) ∨
    (∃ p, controlTarget s i = some p) := by
  cases i
  case trap vec =>
    cases hv : trapService vec with
    | some v => exact .inl ⟨v, hv⟩
    | none => exact .inr (.inl ⟨_, if_pos ((trapService_eq_none_iff vec).mp hv)⟩)
  all_goals simp [serviceOf, causeOf, destWrite, storeWrite, controlTarget]

/-- What an instruction that completes did. -/
theorem exec_next_cases {i : Instr} {s t : State} (h : exec i s = .next t) :
    (∃ v, serviceOf i = some v ∧ runService s v = .next t) ∨
    (∃ c, causeOf i = some c ∧ t = raise s c) ∨
    (∃ dr v, destWrite s i = some (dr, v) ∧ t = writeDest (afterReads s (readAddrs s i)) dr v) ∨
    (∃ a v, storeWrite s i = some (a, v) ∧ t = memWrite (afterReads s (readAddrs s i)) a v) ∨
    (∃ p, controlTarget s i = some p ∧ t = (if destRegs i = [] then s else link s).setPc p) := by
  obtain ⟨v, g⟩ | ⟨c, g⟩ | ⟨dr, v, g⟩ | ⟨a, v, g⟩ | ⟨p, g⟩ := instr_groups s i
  · exact .inl ⟨v, g, exec_service i v s g ▸ h⟩
  · rw [exec_cause i c s g] at h; cases h
    exact .inr (.inl ⟨c, g, rfl⟩)
  · rw [exec_dest g] at h; cases h
    exact .inr (.inr (.inl ⟨dr, v, g, rfl⟩))
  · rw [exec_store g] at h; cases h
    exact .inr (.inr (.inr (.inl ⟨a, v, g, rfl⟩)))
  · rw [exec_control g] at h; cases h
    exact .inr (.inr (.inr (.inr ⟨p, g, rfl⟩)))

/-! ### The canonical form -/

theorem exec_wf {i : Instr} {s t : State} (hs : s.mem.wf) (h : exec i s = .next t) : t.mem.wf := by
  obtain ⟨v, -, hv⟩ | ⟨c, -, rfl⟩ | ⟨dr, v, -, rfl⟩ | ⟨a, v, -, rfl⟩ | ⟨p, -, rfl⟩ := exec_next_cases h
  · obtain ⟨-, -, hmem, -⟩ := runService_frame s t v hv
    rwa [hmem]
  · exact hs
  · exact afterReads_wf s _ hs
  · exact memWrite_wf _ a v (afterReads_wf s _ hs)
  · rw [setPc_mem]; split <;> exact hs

/-- Settles O46: the fetch keeps the form, and so does every instruction after it. -/
theorem stepKeepsMemoryCanonical : Obligations.StepKeepsMemoryCanonical := by
  intro s t hs h
  obtain ⟨-, hexec⟩ := step_next s t h
  exact exec_wf (fetch_wf s hs) hexec

/-- Settles O58: the reset memory lists no cell. -/
theorem resetMemoryIsCanonical : Obligations.ResetMemoryIsCanonical :=
  show Memory.wf [] from ⟨.nil, by simp⟩

end Sys2Proof.Machine

/-! PROOFS. The state's rules (10_state): who writes the PC, COND, the registers, the output and the input side. -/

namespace Sys2Proof.Machine

/-! ### The PC (10_state R23) -/

theorem runService_pc {s t : State} {v : TrapService} (h : runService s v = .next t) :
    t.pc = s.pc := by
  obtain ⟨-, hpc, -⟩ := runService_frame s t v h
  exact hpc

theorem exec_pc {i : Instr} {s t : State} (h : exec i s = .next t) :
    t.pc = (controlTarget s i).getD s.pc := by
  obtain ⟨v, g, hv⟩ | ⟨c, g, rfl⟩ | ⟨dr, v, g, rfl⟩ | ⟨a, v, g, rfl⟩ | ⟨p, g, rfl⟩ := exec_next_cases h
  · obtain ⟨-, -, hc⟩ := serviceOf_tables g s
    rw [hc, runService_pc hv, Option.getD_none]
  · obtain ⟨-, hc⟩ := causeOf_tables g s
    rw [hc, raise_pc, Option.getD_none]
  · obtain ⟨-, -, hc⟩ := destWrite_tables g
    simp [hc]
  · obtain ⟨-, -, hc⟩ := storeWrite_tables g
    simp [hc]
  · simp [g]

theorem branchTaken_iff (n z p : Bool) (c : Cond) :
    branchTaken n z p c = true ↔
      (n = true ∧ c = .negative) ∨ (z = true ∧ c = .zero) ∨ (p = true ∧ c = .positive) := by
  cases c <;> simp [branchTaken]

/-- Only BR, JMP, RET, JSR and JSRR have a control target. -/
theorem controlTarget_eq_none (s : State) (i : Instr) (hbr : ∀ n z p off9, i ≠ .br n z p off9)
    (hjmp : ∀ baseR, i ≠ .jmp baseR) (hret : i ≠ .ret) (hjsr : ∀ off11, i ≠ .jsr off11)
    (hjsrr : ∀ baseR, i ≠ .jsrr baseR) : controlTarget s i = none := by
  cases i
  case br => exact absurd rfl (hbr _ _ _ _)
  case jmp => exact absurd rfl (hjmp _)
  case ret => exact absurd rfl hret
  case jsr => exact absurd rfl (hjsr _)
  case jsrr => exact absurd rfl (hjsrr _)
  all_goals rfl

/-- Settles O41: the PC after an instruction is its control target, or the incremented PC where it has none. -/
theorem thePcAdvancesByOneUnlessControlTransfers :
    Obligations.ThePcAdvancesByOneUnlessControlTransfers := by
  refine ⟨fun s t h => ?_, fun s h => by rw [fetch_pc, h]; rfl⟩
  obtain ⟨-, hexec⟩ := step_next s t h
  have hpc := exec_pc hexec
  split
  case h_1 hi => rw [hpc, hi]; simp [controlTarget, branchTaken_iff, pcRel9]
  case h_2 hi => rw [hpc, hi]; simp [controlTarget]
  case h_3 hi => rw [hpc, hi]; simp [controlTarget]
  case h_4 hi => rw [hpc, hi]; simp [controlTarget, pcRel11]
  case h_5 hi => rw [hpc, hi]; simp [controlTarget]
  case h_6 hbr hjmp hret hjsr hjsrr =>
    rw [hpc, controlTarget_eq_none _ _ hbr hjmp hret hjsr hjsrr, Option.getD_none, fetch_pc]

/-! ### The general registers (10_state R20, R21) -/

theorem emitString_emits {s t : State} {bytes : Word → List Byte}
    (h : emitString s bytes = .next t) : ∃ bs, t = emit s bs := by
  obtain ⟨-, e⟩ | ⟨cells, -, e⟩ := emitString_cases s bytes <;> rw [e] at h <;> cases h
  exact ⟨_, rfl⟩

/-- A routine that takes no character leaves every register and COND. -/
theorem runService_keeps_regs {s t : State} {v : TrapService} (h : runService s v = .next t)
    (hv : ¬ (v = .getc ∨ v = .inChar)) : t.regs = s.regs ∧ t.cond = s.cond := by
  cases v with
  | getc => exact absurd (.inl rfl) hv
  | inChar => exact absurd (.inr rfl) hv
  | out => cases h; exact ⟨rfl, rfl⟩
  | halt => cases h; exact ⟨rfl, rfl⟩
  | puts => obtain ⟨bs, rfl⟩ := emitString_emits h; exact ⟨rfl, rfl⟩
  | putsp => obtain ⟨bs, rfl⟩ := emitString_emits h; exact ⟨rfl, rfl⟩

/-- Settles O43: no group writes a register beside `destRegs`. -/
theorem onlyListedRegistersAreWritten : Obligations.OnlyListedRegistersAreWritten := by
  intro i s t h r hr
  obtain ⟨v, g, hv⟩ | ⟨c, -, rfl⟩ | ⟨dr, v, g, rfl⟩ | ⟨a, v, -, rfl⟩ | ⟨p, g, rfl⟩ := exec_next_cases h
  · obtain ⟨hd, -, -⟩ := serviceOf_tables g s
    by_cases hc : v = .getc ∨ v = .inChar
    · obtain ⟨hother, -⟩ := runService_frame s t v hv
      rw [hd, if_pos hc, List.mem_singleton] at hr
      exact hother r hr
    · obtain ⟨hregs, -⟩ := runService_keeps_regs hv hc
      simp only [State.reg, hregs]
  · rfl
  · obtain ⟨hd, -, -⟩ := destWrite_tables g
    rw [hd, List.mem_singleton] at hr
    rw [writeDest_reg, if_neg hr, afterReads_reg]
  · rw [memWrite_reg, afterReads_reg]
  · rw [setPc_reg]
    obtain ⟨-, hd | hd⟩ := controlTarget_tables g
    · rw [if_pos hd]
    · rw [hd, List.mem_singleton] at hr
      rw [if_neg (by simp [hd]), link_reg, if_neg hr]

/-! ### Output, input and parameters (10_state R32, R36) -/

theorem exec_output_input_cfg {i : Instr} {s t : State} (h : exec i s = .next t) :
    s.outSeq <+: t.outSeq ∧ t.input <:+ s.input ∧ t.cfg = s.cfg := by
  obtain ⟨v, -, hv⟩ | ⟨c, -, rfl⟩ | ⟨dr, v, -, rfl⟩ | ⟨a, v, -, rfl⟩ | ⟨p, -, rfl⟩ := exec_next_cases h
  · obtain ⟨-, -, -, -, -, hcfg, hout, hin⟩ := runService_frame s t v hv
    exact ⟨hout, hin, hcfg⟩
  · exact ⟨List.prefix_rfl, List.suffix_rfl, rfl⟩
  · exact ⟨by simp, by simpa using afterReads_input s _, by simp⟩
  · exact ⟨by simp, by simpa using afterReads_input s _, by simp⟩
  · split <;> exact ⟨List.prefix_rfl, List.suffix_rfl, rfl⟩

/-- Settles O45: the fetch emits nothing and takes at most one character; then `exec_output_input_cfg`. -/
theorem outputGrowsInputShrinksParametersStay : Obligations.OutputGrowsInputShrinksParametersStay := by
  intro s t h
  obtain ⟨-, hexec⟩ := step_next s t h
  obtain ⟨hout, hin, hcfg⟩ := exec_output_input_cfg hexec
  rw [fetch_outSeq] at hout
  rw [fetch_cfg] at hcfg
  exact ⟨hout, hin.trans (fetch_input s), hcfg⟩

/-! ### COND's values (10_state R25) -/

theorem flagsOf_cases (v : Word) :
    (v.toNat = 0 ∧ flagsOf v = .zero) ∨ (0x8000 ≤ v.toNat ∧ flagsOf v = .negative) ∨
    (1 ≤ v.toNat ∧ v.toNat ≤ 0x7FFF ∧ flagsOf v = .positive) := by
  have zero : v = 0x0000#16 ↔ v.toNat = 0 := BitVec.toNat_inj.symm
  have sign : v.getLsbD 15 = true ↔ 0x8000 ≤ v.toNat := by
    rw [← BitVec.msb_eq_getLsbD_last v, BitVec.msb_eq_decide, decide_eq_true_iff]
  by_cases hz : v = 0x0000#16
  · exact .inl ⟨zero.mp hz, if_pos hz⟩
  · have hnz : v.toNat ≠ 0 := fun h => hz (zero.mpr h)
    by_cases hs : v.getLsbD 15 = true
    · exact .inr (.inl ⟨sign.mp hs, by rw [flagsOf, if_neg hz, if_pos hs]⟩)
    · have hlt : ¬ 0x8000 ≤ v.toNat := fun h => hs (sign.mpr h)
      exact .inr (.inr ⟨by omega, by omega, by rw [flagsOf, if_neg hz, if_neg hs]⟩)

/-- Settles O2: the three cases of `flagsOf` exclude each other; the rest is the laws of `updateFlags`. -/
theorem flagsFollowTheSignOfTheValue : Obligations.FlagsFollowTheSignOfTheValue := by
  refine ⟨fun v => ?_, fun s r => ⟨updateFlags_cond s r, fun q _ => updateFlags_reg s r q,
    updateFlags_pc s r, ⟨rfl, rfl, rfl⟩, fun a _ => updateFlags_cellRead s r a, rfl, rfl, rfl⟩, fun s r v => ?_⟩
  · have value := BitVec.toInt_eq_toNat_cond v
    obtain ⟨hv, e⟩ | ⟨hv, e⟩ | ⟨hlo, hhi, e⟩ := flagsOf_cases v <;>
      simp only [e, reduceCtorEq, true_iff, false_iff] <;> omega
  · rw [updateFlags_cond, setReg_reg_same]

/-! ### Memory as data (log 1) -/

theorem Memory.read_cons_self (k : Nat) (w : Word) (m : Memory) :
    Memory.read ((k, w) :: m) k = w := if_pos rfl

theorem Memory.read_cons_ne {k a : Nat} (h : k ≠ a) (w : Word) (m : Memory) :
    Memory.read ((k, w) :: m) a = m.read a := if_neg h

theorem Memory.wf_cons {k : Nat} {w : Word} {m : Memory} (h : Memory.wf ((k, w) :: m)) :
    (∀ c ∈ m, k < c.1) ∧ k < 65536 ∧ w ≠ Memory.unlisted ∧ m.wf := by
  obtain ⟨hrise, hcells⟩ := h
  obtain ⟨hfirst, hrise⟩ := List.pairwise_cons.mp hrise
  obtain ⟨⟨hk, hw⟩, hcells⟩ := List.forall_mem_cons.mp hcells
  exact ⟨hfirst, hk, hw, hrise, hcells⟩

/-- A canonical memory that agrees with another at that one's first address lists nothing above it first. -/
theorem Memory.first_le {k l : Nat} {w x : Word} {m n : Memory} (hm : Memory.wf ((k, w) :: m))
    (hn : Memory.wf ((l, x) :: n))
    (hread : Memory.read ((k, w) :: m) k = Memory.read ((l, x) :: n) k) : l ≤ k := by
  obtain ⟨-, -, hw, -⟩ := Memory.wf_cons hm
  obtain ⟨hfirst, -⟩ := Memory.wf_cons hn
  by_contra hlt
  have below : ∀ c ∈ (l, x) :: n, k < c.1 :=
    List.forall_mem_cons.mpr ⟨by omega, fun c hc => by have := hfirst c hc; omega⟩
  rw [Memory.read_cons_self, Memory.read_lt_first _ k below] at hread
  exact hw hread

/-- Tails of canonical memories with one first address read alike where the memories do. -/
theorem Memory.tails_read_alike {k : Nat} {w x : Word} {m n : Memory} (hm : ∀ c ∈ m, k < c.1)
    (hn : ∀ c ∈ n, k < c.1) {a : Nat}
    (hread : Memory.read ((k, w) :: m) a = Memory.read ((k, x) :: n) a) : m.read a = n.read a := by
  by_cases h : k = a
  · rw [← h, Memory.read_lt_first m k hm, Memory.read_lt_first n k hn]
  · rwa [Memory.read_cons_ne h, Memory.read_cons_ne h] at hread

/-- Settles O39, by induction: the memories list the same first cell, and what follows it reads alike. -/
theorem canonicalMemoriesThatReadAlikeAreEqual :
    Obligations.CanonicalMemoriesThatReadAlikeAreEqual := by
  intro m
  induction m with
  | nil =>
    rintro (_ | ⟨⟨l, x⟩, n⟩) - hn hread
    · rfl
    · obtain ⟨-, hl, hx, -⟩ := Memory.wf_cons hn
      exact absurd ((Memory.read_cons_self l x n).symm.trans (hread l hl).symm) hx
  | cons c m ih =>
    obtain ⟨k, w⟩ := c
    rintro (_ | ⟨⟨l, x⟩, n⟩) hm hn hread
    · obtain ⟨-, hk, hw, -⟩ := Memory.wf_cons hm
      exact absurd ((Memory.read_cons_self k w m).symm.trans (hread k hk)) hw
    · obtain ⟨hfirst, hk, -, hm'⟩ := Memory.wf_cons hm
      obtain ⟨hfirst', hl, -, hn'⟩ := Memory.wf_cons hn
      obtain rfl : k = l := le_antisymm (Memory.first_le hn hm (hread l hl).symm)
        (Memory.first_le hm hn (hread k hk))
      obtain rfl : w = x := by
        have := hread k hk
        rwa [Memory.read_cons_self, Memory.read_cons_self] at this
      rw [ih n hm' hn' (fun a ha => Memory.tails_read_alike hfirst hfirst' (hread a ha))]

/-! ### Reset and launch (10_state R33, 70_reset R163) -/

theorem reset_reg (r : Reg) : State.reset.reg r = 0x0000#16 := by
  revert r; decide

/-- Settles O57: with no cell listed, every cell reads as unlisted. -/
theorem resetHoldsTheSpecValues : Obligations.ResetHoldsTheSpecValues :=
  ⟨reset_reg, rfl, rfl, rfl, rfl, fun _ => rfl⟩

/-- The memory after placing the images in order, each over those before it (R163). -/
def placeImages (m : Memory) (images : List Image) : Memory :=
  images.foldl (fun m img => placeWords m img.origin.toNat img.words) m

theorem loadImages_of_parsed (files : List (Option (List Byte))) (images : List Image)
    (h : files.map (fun f => f.bind parseImage) = images.map some) (m : Memory) (k : Nat) :
    loadImages m k files = .ok (placeImages m images) := by
  induction files generalizing images m k with
  | nil =>
    have : images = [] := by simpa using h.symm
    rw [this]; rfl
  | cons f files ih =>
    cases images with
    | nil => cases h
    | cons img images =>
      obtain ⟨hf, hfiles⟩ := List.cons.inj h
      rw [loadImages, show f.bind parseImage = some img from hf]
      exact ih images hfiles _ _

theorem placeImages_read (images : List Image) (m : Memory) (a : Nat) :
    (placeImages m images).read a = images.foldl (fun w img =>
      if img.origin.toNat ≤ a ∧ a < img.origin.toNat + img.words.length
      then img.words.getD (a - img.origin.toNat) 0x0000#16 else w) (m.read a) := by
  induction images generalizing m with
  | nil => rfl
  | cons img images ih =>
    rw [List.foldl_cons, ← placeWords_read]
    exact ih _

/-- Settles O54: the files load as their images in order, and a read of the loaded memory folds over them. -/
theorem launchHoldsTheResetValuesAndTheImages : Obligations.LaunchHoldsTheResetValuesAndTheImages := by
  intro cfg files images input draws hne hparsed
  have started : launch cfg files input draws =
      .ok (bootState cfg (placeImages [] images) input draws) := by
    cases files with
    | nil => exact absurd rfl hne
    | cons f files => rw [launch, loadImages_of_parsed _ _ hparsed]; rfl
  exact ⟨_, started, reset_reg, rfl, rfl, rfl, rfl, rfl, rfl, rfl,
    fun a => placeImages_read images [] a.toNat⟩

end Sys2Proof.Machine

/-! PROOFS. Parts of the state an instruction does not see: COND (10_state R26) and the input side (R34). -/

namespace Sys2Proof.Machine

/-! ### A change that no operation sees -/

/-- `s` with another COND. -/
def withCond (c : Cond) (s : State) : State := { s with cond := c }

/-- `f` changes a part of the state that is no register, PC, cell or parameter, and that no operation but
`update_flags`, the poll and the taking of a character looks at or changes. -/
structure Unseen (f : State → State) : Prop where
  reg_eq : ∀ u r, (f u).reg r = u.reg r
  pc_eq : ∀ u, (f u).pc = u.pc
  mem_eq : ∀ u, (f u).mem = u.mem
  cfg_eq : ∀ u, (f u).cfg = u.cfg
  setPc_comm : ∀ u p, (f u).setPc p = f (u.setPc p)
  link_comm : ∀ u, link (f u) = f (link u)
  memWrite_comm : ∀ u a v, memWrite (f u) a v = f (memWrite u a v)
  emit_comm : ∀ u bs, emit (f u) bs = f (emit u bs)
  raise_comm : ∀ u c, raise (f u) c = f (raise u c)
  haltRun_comm : ∀ u, haltRun (f u) = f (haltRun u)

/-- The MemReads of the addresses `as` do not see what `f` changes either, from any state with the parameters
of `s`. -/
def ReadsUnseen (f : State → State) (s : State) (as : List Word) : Prop :=
  ∀ u, u.cfg = s.cfg → ∀ a ∈ as, afterRead (f u) a = f (afterRead u a)

theorem withCond_unseen (c : Cond) : Unseen (withCond c) := by
  constructor <;> intros <;> rfl

theorem withInput_unseen (input : List Byte) (draws : List Bool) (polls : Nat) :
    Unseen (withInput input draws polls) := by
  constructor <;> intros <;> rfl

theorem ReadsUnseen.afterReads_comm {f : State → State} {s : State} {as : List Word}
    (hreads : ReadsUnseen f s as) (u : State) (hu : u.cfg = s.cfg) :
    afterReads (f u) as = f (afterReads u as) := by
  induction as generalizing u with
  | nil => rfl
  | cons a as ih =>
    have first : afterRead (f u) a = f (afterRead u a) := hreads u hu a (by simp)
    have rest : ReadsUnseen f s as := fun u hu b hb => hreads u hu b (by simp [hb])
    rw [afterReads, List.foldl_cons, first]
    exact ih rest (afterRead u a) (by simpa using hu)

theorem kbdPoll_withCond (c : Cond) (s : State) :
    kbdPoll (withCond c s) = withCond c (kbdPoll s) := by
  have excluded : ∀ b rest, s.input = b :: rest → s.nextDraw = true →
      ¬ (s.input = [] ∨ s.nextDraw = false) := by simp_all
  obtain ⟨b, rest, hi, hd, e⟩ | ⟨hno, e⟩ := kbdPoll_cases s <;>
    obtain ⟨b', rest', hi', hd', e'⟩ | ⟨hno', e'⟩ := kbdPoll_cases (withCond c s)
  · cases hi.symm.trans hi'
    rw [e, e']; rfl
  · exact absurd hno' (excluded b rest hi hd)
  · exact absurd hno (excluded b' rest' hi' hd')
  · rw [e, e']; rfl

theorem withCond_readsUnseen (c : Cond) (s : State) (as : List Word) :
    ReadsUnseen (withCond c) s as := by
  intro u _ a _
  rw [afterRead, afterRead, kbdPoll_withCond, apply_ite (withCond c)]
  rfl

theorem withInput_readsUnseen (input : List Byte) (draws : List Bool) (polls : Nat) (s : State)
    (as : List Word) (h : s.cfg.kbsrAddr ∉ as) : ReadsUnseen (withInput input draws polls) s as := by
  intro u hu a ha
  have hne : a ≠ u.cfg.kbsrAddr := fun e => h (hu ▸ e ▸ ha)
  rw [afterRead_other u a hne]
  exact afterRead_other _ a hne

section
variable {f : State → State} {s t : State} {i : Instr} (hf : Unseen f)
include hf

theorem Unseen.cellRead_eq (u : State) (a : Word) : cellRead (f u) a = cellRead u a := by
  rw [cellRead, cellRead, hf.mem_eq]

theorem Unseen.memRead_fst_eq {as : List Word} (hreads : ReadsUnseen f s as) {u : State}
    (hu : u.cfg = s.cfg) {a : Word} (ha : a ∈ as) : (memRead (f u) a).1 = (memRead u a).1 := by
  rw [memRead_fst, memRead_fst, hreads u hu a ha, hf.cellRead_eq]

theorem Unseen.pcRel9_eq (off9 : BitVec 9) : pcRel9 (f s) off9 = pcRel9 s off9 := by
  rw [pcRel9, pcRel9, hf.pc_eq]

theorem Unseen.baseOff_eq (baseR : Reg) (off6 : BitVec 6) : baseOff (f s) baseR off6 = baseOff s baseR off6 := by
  rw [baseOff, baseOff, hf.reg_eq]

theorem Unseen.readAddrs_eq (hreads : ReadsUnseen f s (readAddrs s i)) :
    readAddrs (f s) i = readAddrs s i := by
  cases i
  case ldi dr off9 =>
    have pointer := hf.memRead_fst_eq hreads rfl (a := pcRel9 s off9) (by simp [readAddrs])
    simp only [readAddrs, hf.pcRel9_eq, pointer]
  all_goals simp only [readAddrs, hf.pcRel9_eq, hf.baseOff_eq]

theorem Unseen.destWrite_eq (hreads : ReadsUnseen f s (readAddrs s i)) :
    destWrite (f s) i = destWrite s i := by
  cases i
  case ld dr off9 =>
    have value := hf.memRead_fst_eq hreads rfl (a := pcRel9 s off9) (by simp [readAddrs])
    simp only [destWrite, hf.pcRel9_eq, value]
  case ldr dr baseR off6 =>
    have value := hf.memRead_fst_eq hreads rfl (a := baseOff s baseR off6) (by simp [readAddrs])
    simp only [destWrite, hf.baseOff_eq, value]
  case ldi dr off9 =>
    have pointer := hf.memRead_fst_eq hreads rfl (a := pcRel9 s off9) (by simp [readAddrs])
    have first := hreads s rfl (pcRel9 s off9) (by simp [readAddrs])
    have value := hf.memRead_fst_eq hreads (u := afterRead s (pcRel9 s off9)) (by simp)
      (a := (memRead s (pcRel9 s off9)).1) (by simp [readAddrs])
    simp only [destWrite, hf.pcRel9_eq, pointer, first, value]
  all_goals simp only [destWrite, hf.reg_eq, hf.pcRel9_eq]

theorem Unseen.storeWrite_eq (hreads : ReadsUnseen f s (readAddrs s i)) :
    storeWrite (f s) i = storeWrite s i := by
  cases i
  case sti sr off9 =>
    have pointer := hf.memRead_fst_eq hreads rfl (a := pcRel9 s off9) (by simp [readAddrs])
    simp only [storeWrite, hf.reg_eq, hf.pcRel9_eq, pointer]
  all_goals simp only [storeWrite, hf.reg_eq, hf.pcRel9_eq, hf.baseOff_eq]

theorem Unseen.emitString_next {bytes : Word → List Byte} (h : emitString s bytes = .next t) :
    emitString (f s) bytes = .next (f t) := by
  have string : stringAt (f s) ((f s).reg 0#3) = stringAt s (s.reg 0#3) := by
    rw [stringAt, stringAt, hf.mem_eq, hf.reg_eq]
  obtain ⟨-, e⟩ | ⟨cells, hcells, e⟩ := emitString_cases s bytes <;> rw [e] at h <;> cases h
  simp only [emitString, string, hcells, hf.emit_comm]

theorem Unseen.runService_next {v : TrapService} (hv : ¬ (v = .getc ∨ v = .inChar))
    (h : runService s v = .next t) : runService (f s) v = .next (f t) := by
  cases v with
  | getc => exact absurd (.inl rfl) hv
  | inChar => exact absurd (.inr rfl) hv
  | out => cases h; simp only [runService, hf.reg_eq, hf.emit_comm]
  | halt => cases h; simp only [runService, hf.cfg_eq, hf.emit_comm, hf.haltRun_comm]
  | puts => exact hf.emitString_next h
  | putsp => exact hf.emitString_next h

/-- An instruction that takes no character, and whose MemReads and control target do not see what `f` changes,
does the same after `f`; what it then leaves is `f`'s, but COND where it sets COND. -/
theorem Unseen.exec_next (hreads : ReadsUnseen f s (readAddrs s i))
    (htarget : controlTarget (f s) i = controlTarget s i)
    (hgetc : serviceOf i ≠ some .getc) (hin : serviceOf i ≠ some .inChar)
    (h : exec i s = .next t) :
    (flagSource i = none ∧ exec i (f s) = .next (f t)) ∨
    (∃ dr v u, flagSource i = some dr ∧ t = writeDest u dr v ∧
      exec i (f s) = .next (writeDest (f u) dr v)) := by
  have after : afterReads (f s) (readAddrs (f s) i) =
      f (afterReads s (readAddrs s i)) := by
    rw [hf.readAddrs_eq hreads, hreads.afterReads_comm s rfl]
  obtain ⟨v, g, hv⟩ | ⟨c, g, rfl⟩ | ⟨dr, v, g, rfl⟩ | ⟨a, v, g, rfl⟩ | ⟨p, g, rfl⟩ := exec_next_cases h
  · have hchar : ¬ (v = .getc ∨ v = .inChar) := by
      rintro (rfl | rfl)
      · exact hgetc g
      · exact hin g
    obtain ⟨-, hflag, -⟩ := serviceOf_tables g s
    rw [if_neg hchar] at hflag
    exact .inl ⟨hflag, by rw [exec_service i v _ g, hf.runService_next hchar hv]⟩
  · obtain ⟨hflag, -⟩ := causeOf_tables g s
    exact .inl ⟨hflag, by rw [exec_cause i c _ g, hf.raise_comm]⟩
  · obtain ⟨-, hflag, -⟩ := destWrite_tables g
    exact .inr ⟨dr, v, _, hflag, rfl, by
      rw [exec_dest ((hf.destWrite_eq hreads).trans g), after]⟩
  · obtain ⟨-, hflag, -⟩ := storeWrite_tables g
    exact .inl ⟨hflag, by rw [exec_store ((hf.storeWrite_eq hreads).trans g), after, hf.memWrite_comm]⟩
  · obtain ⟨hflag, -⟩ := controlTarget_tables g
    refine .inl ⟨hflag, ?_⟩
    rw [exec_control (htarget.trans g), ← hf.setPc_comm, apply_ite f, hf.link_comm]

end

/-! ### COND (10_state R26) -/

/-- A taken character's flags are R0's. -/
theorem readChar_flags {s t : State} {echo : Byte → List Byte} (h : readChar s echo = .next t) :
    t.cond = flagsOf (t.reg 0#3) := by
  obtain ⟨-, e⟩ | ⟨c, rest, -, e⟩ := readChar_cases s echo <;> rw [e] at h <;> cases h
  rw [writeDest_cond, writeDest_reg, if_pos rfl]

/-- Taking a character overwrites COND without a look at it. -/
theorem readChar_withCond {s t : State} {echo : Byte → List Byte} (c : Cond)
    (h : readChar s echo = .next t) : readChar (withCond c s) echo = .next t := by
  obtain ⟨-, e⟩ | ⟨b, rest, hi, e⟩ := readChar_cases s echo <;> rw [e] at h <;> cases h
  obtain ⟨hi', -⟩ | ⟨b', rest', hi', e'⟩ := readChar_cases (withCond c s) echo
  · cases hi.symm.trans hi'
  · cases hi.symm.trans hi'
    exact e'

theorem runService_flags {s t : State} {v : TrapService} (h : runService s v = .next t)
    (hv : v = .getc ∨ v = .inChar) : t.cond = flagsOf (t.reg 0#3) := by
  obtain rfl | rfl := hv <;> exact readChar_flags h

theorem runService_withCond {s t : State} {v : TrapService} (c : Cond)
    (h : runService s v = .next t) (hv : v = .getc ∨ v = .inChar) :
    runService (withCond c s) v = .next t := by
  obtain rfl | rfl := hv <;> exact readChar_withCond c h

theorem exec_writes_cond {i : Instr} {s t : State} (h : exec i s = .next t) :
    (∀ r, flagSource i = some r → t.cond = flagsOf (t.reg r)) ∧
    (flagSource i = none → t.cond = s.cond) := by
  obtain ⟨v, g, hv⟩ | ⟨c, g, rfl⟩ | ⟨dr, v, g, rfl⟩ | ⟨a, v, g, rfl⟩ | ⟨p, g, rfl⟩ := exec_next_cases h
  · obtain ⟨-, hflag, -⟩ := serviceOf_tables g s
    by_cases hchar : v = .getc ∨ v = .inChar
    · rw [hflag, if_pos hchar]
      refine ⟨fun r hr => ?_, fun hnone => (by cases hnone)⟩
      cases hr
      exact runService_flags hv hchar
    · rw [hflag, if_neg hchar]
      obtain ⟨-, hcond⟩ := runService_keeps_regs hv hchar
      exact ⟨fun r hr => (by cases hr), fun _ => hcond⟩
  · obtain ⟨hflag, -⟩ := causeOf_tables g s
    simp [hflag]
  · obtain ⟨-, hflag, -⟩ := destWrite_tables g
    simp [hflag, writeDest_reg]
  · obtain ⟨-, hflag, -⟩ := storeWrite_tables g
    simp [hflag]
  · obtain ⟨hflag, -⟩ := controlTarget_tables g
    refine ⟨fun r hr => (by rw [hflag] at hr; cases hr), fun _ => ?_⟩
    rw [setPc_cond]; split <;> rfl

/-- An instruction but BR does the same whatever COND was, and leaves that COND or writes its own. -/
theorem exec_withCond {i : Instr} {s t : State} (c : Cond) (h : exec i s = .next t)
    (hbr : ∀ n z p off9, i ≠ .br n z p off9) :
    exec i (withCond c s) = .next (if flagSource i = none then withCond c t else t) := by
  have target : controlTarget (withCond c s) i = controlTarget s i := by
    cases i
    case br n z p off9 => exact absurd rfl (hbr n z p off9)
    all_goals rfl
  by_cases hchar : serviceOf i = some .getc ∨ serviceOf i = some .inChar
  · obtain ⟨v, g, hv⟩ : ∃ v, serviceOf i = some v ∧ (v = .getc ∨ v = .inChar) := by
      obtain g | g := hchar
      · exact ⟨_, g, .inl rfl⟩
      · exact ⟨_, g, .inr rfl⟩
    obtain ⟨-, hflag, -⟩ := serviceOf_tables g s
    rw [exec_service i v s g] at h
    rw [exec_service i v _ g, runService_withCond c h hv, hflag, if_pos hv]
    rfl
  · obtain ⟨hgetc, hin⟩ := not_or.mp hchar
    obtain ⟨hflag, e⟩ | ⟨dr, v, u, hflag, rfl, e⟩ := (withCond_unseen c).exec_next
      (withCond_readsUnseen c s _) target hgetc hin h
    · rw [e, if_pos hflag]
    · rw [e, hflag]; rfl

/-- Settles O42: `exec_writes_cond` says who writes COND, `exec_withCond` that only BR reads it. -/
theorem condIsWrittenAndReadAsListed : Obligations.CondIsWrittenAndReadAsListed := by
  refine ⟨fun i s t h => exec_writes_cond h, fun i s t c h hbr => ?_⟩
  refine (exec_withCond c h hbr).trans ?_
  split <;> rfl

/-! ### The input side (10_state R34) -/

/-- Settles O47: neither the fetch nor the instruction after it sees the input side, and no COND comes from it. -/
theorem inputIsUnseenWithoutAPollOrARead : Obligations.InputIsUnseenWithoutAPollOrARead := by
  intro s t input draws polls hpc hreads hgetc hin h
  obtain ⟨hrun, hexec⟩ := step_next s t h
  have fetched : fetch (withInput input draws polls s) =
      ((fetch s).1, withInput input draws polls (fetch s).2) := by
    rw [fetch_other s hpc]
    exact fetch_other _ hpc
  have target : ∀ i u, controlTarget (withInput input draws polls u) i = controlTarget u i := by
    intro i u
    cases i <;> rfl
  rw [step_of_running (withInput input draws polls s) hrun, fetched]
  obtain ⟨-, e⟩ | ⟨dr, v, u, -, rfl, e⟩ := (withInput_unseen input draws polls).exec_next
    (withInput_readsUnseen input draws polls _ _ (by simpa using hreads)) (target _ _) hgetc hin hexec
  · exact e
  · exact e

end Sys2Proof.Machine

/-! PROOFS. Memory and the keyboard (20_memory): the poll, MemRead and MemWrite, who changes a cell, and the fetch
after a store. -/

namespace Sys2Proof.Machine

/-! ### MemRead (20_memory R42) -/

/-- Settles O34: off KBSR_ADDR the read is plain; at it, the state read is the one the poll left. -/
theorem memReadPollsOnlyAtKbsr : Obligations.MemReadPollsOnlyAtKbsr :=
  ⟨memRead_other, fun s => ⟨afterRead_kbsr s, by rw [memRead_fst, afterRead_kbsr]⟩⟩

/-! ### The poll (20_memory R43) -/

/-- A delivering poll writes the status cell first, so where the two addresses are equal the character stands. -/
theorem kbdPoll_delivers {s : State} {c : Byte} {rest : List Byte} (hi : s.input = c :: rest)
    (hd : s.nextDraw = true) :
    (kbdPoll s).input = rest ∧
    ∀ a, cellRead (kbdPoll s) a = if a = s.cfg.kbdrAddr then zextByte c
      else if a = s.cfg.kbsrAddr then kbsrReady else cellRead s a := by
  obtain ⟨c', rest', hi', -, e⟩ | ⟨hi' | hd', -⟩ := kbdPoll_cases s
  · cases hi.symm.trans hi'
    rw [e]
    exact ⟨rfl, fun a => by rw [memWrite_cellRead, memWrite_cellRead]; rfl⟩
  · cases hi.symm.trans hi'
  · cases hd.symm.trans hd'

theorem kbdPoll_clears {s : State} (h : s.input = [] ∨ s.nextDraw = false) :
    (kbdPoll s).input = s.input ∧
    ∀ a, cellRead (kbdPoll s) a = if a = s.cfg.kbsrAddr then 0x0000#16 else cellRead s a := by
  obtain ⟨c, rest, hi, hd, -⟩ | ⟨-, e⟩ := kbdPoll_cases s
  · simp [hi, hd] at h
  · rw [e]
    exact ⟨rfl, fun a => by rw [memWrite_cellRead]; rfl⟩

theorem kbdPoll_coreKept (s : State) : CoreKept s (kbdPoll s) :=
  ⟨fun r _ => kbdPoll_reg s r, kbdPoll_pc s, kbdPoll_cond s, kbdPoll_status s, kbdPoll_outSeq s,
    kbdPoll_cfg s⟩

theorem zextByte_eq_ofNat (c : Byte) : zextByte c = BitVec.ofNat 16 c.toNat :=
  (BitVec.ofNat_toNat 16 c).symm

theorem nextDraw_of_cons {s : State} {d : Bool} {ds : List Bool} (h : s.kbdDraws = d :: ds) :
    s.nextDraw = d := by
  rw [State.nextDraw, h]

/-- Settles O35: `kbdPoll_delivers` and `kbdPoll_clears` are its two outcomes. -/
theorem pollDeliversOneCharacterOrClearsStatus :
    Obligations.PollDeliversOneCharacterOrClearsStatus := by
  refine ⟨fun s c rest hi hd => ?_, fun s h => kbdPoll_clears h, fun s => ?_,
    fun s d ds h => nextDraw_of_cons h⟩
  · rw [← zextByte_eq_ofNat]
    exact kbdPoll_delivers hi hd
  · exact ⟨kbdPoll_coreKept s, kbdPoll_kbdDraws s, kbdPoll_kbdPolls s⟩

/-! ### MemWrite (20_memory R44) -/

theorem memWrite_storesWord (s : State) (a v : Word) : StoresWord a v s (memWrite s a v) :=
  ⟨fun b => memWrite_cellRead s a b v, ⟨fun _ _ => rfl, rfl, rfl, rfl, rfl, rfl⟩, rfl, rfl, rfl⟩

/-- The cells a poll leaves do not depend on the status cell's value before it. -/
theorem kbdPoll_overwrites_kbsr (s : State) (v a : Word) :
    cellRead (kbdPoll (memWrite s s.cfg.kbsrAddr v)) a = cellRead (kbdPoll s) a := by
  obtain ⟨c, rest, hi, hd, -⟩ | ⟨hno, -⟩ := kbdPoll_cases s
  · obtain ⟨-, cells⟩ := kbdPoll_delivers hi hd
    obtain ⟨-, cells'⟩ := kbdPoll_delivers (s := memWrite s s.cfg.kbsrAddr v) hi hd
    rw [cells, cells', memWrite_cellRead, memWrite_cfg]
    split_ifs <;> rfl
  · obtain ⟨-, cells⟩ := kbdPoll_clears hno
    obtain ⟨-, cells'⟩ := kbdPoll_clears (s := memWrite s s.cfg.kbsrAddr v) hno
    rw [cells, cells', memWrite_cellRead, memWrite_cfg]
    split_ifs <;> rfl

/-- Settles O37: the second read polls, and the poll overwrites what was stored (`kbdPoll_overwrites_kbsr`). -/
theorem memWriteStoresExactlyOneCell : Obligations.MemWriteStoresExactlyOneCell := by
  refine ⟨memWrite_storesWord, fun s v => ?_⟩
  have polled : afterRead (memWrite s s.cfg.kbsrAddr v) s.cfg.kbsrAddr =
      kbdPoll (memWrite s s.cfg.kbsrAddr v) := afterRead_kbsr _
  rw [memRead_fst, memRead_fst, polled, afterRead_kbsr, kbdPoll_overwrites_kbsr]

/-! ### Who changes a cell or takes from the input side (20_memory R40, R49) -/

/-- MemReads, one of KBSR_ADDR or none, write no cell but the two keyboard cells. -/
theorem afterReads_cellRead_other (s : State) (as : List Word) (a : Word)
    (h : s.cfg.kbsrAddr ∈ as → a ≠ s.cfg.kbsrAddr ∧ a ≠ s.cfg.kbdrAddr) :
    cellRead (afterReads s as) a = cellRead s a := by
  by_cases hpoll : s.cfg.kbsrAddr ∈ as
  · obtain ⟨hs, hd⟩ := h hpoll
    obtain ⟨-, kept⟩ : (afterReads s as).cfg = s.cfg ∧ cellRead (afterReads s as) a = cellRead s a :=
      afterReads_induction (P := fun u => u.cfg = s.cfg ∧ cellRead u a = cellRead s a)
        (fun u b ⟨hcfg, hcell⟩ => ⟨(afterRead_cfg u b).trans hcfg,
          (afterRead_cellRead_other u b a (hcfg ▸ hs) (hcfg ▸ hd)).trans hcell⟩) as s ⟨rfl, rfl⟩
    exact kept
  · rw [afterReads_of_not_mem s as hpoll]

theorem exec_cellRead_other {i : Instr} {s t : State} (h : exec i s = .next t) {a : Word}
    (hstore : storeAddr s i ≠ some a)
    (hpoll : s.cfg.kbsrAddr ∈ readAddrs s i → a ≠ s.cfg.kbsrAddr ∧ a ≠ s.cfg.kbdrAddr) :
    cellRead t a = cellRead s a := by
  obtain ⟨v, -, hv⟩ | ⟨c, -, rfl⟩ | ⟨dr, v, -, rfl⟩ | ⟨b, v, g, rfl⟩ | ⟨p, -, rfl⟩ := exec_next_cases h
  · obtain ⟨-, -, hmem, -⟩ := runService_frame s t v hv
    rw [cellRead, hmem, cellRead]
  · rfl
  · rw [writeDest_cellRead]
    exact afterReads_cellRead_other s _ a hpoll
  · obtain ⟨hb, -, -⟩ := storeWrite_tables g
    rw [memWrite_cellRead, if_neg (fun e : a = b => hstore (e ▸ hb))]
    exact afterReads_cellRead_other s _ a hpoll
  · rw [setPc_cellRead]; split <;> rfl

/-- A routine that takes no character leaves the input side: it acts alike where that side is set to what it
already is. -/
theorem runService_inputKept {s t : State} {v : TrapService} (h : runService s v = .next t)
    (hv : ¬ (v = .getc ∨ v = .inChar)) : InputKept s t := by
  have same : runService s v = .next (withInput s.input s.kbdDraws s.kbdPolls t) :=
    (withInput_unseen s.input s.kbdDraws s.kbdPolls).runService_next hv h
  rw [Host.Outcome.next.inj (h.symm.trans same)]
  exact ⟨rfl, rfl, rfl⟩

theorem exec_inputKept {i : Instr} {s t : State} (h : exec i s = .next t)
    (hpoll : s.cfg.kbsrAddr ∉ readAddrs s i) (hgetc : serviceOf i ≠ some .getc)
    (hin : serviceOf i ≠ some .inChar) : InputKept s t := by
  obtain ⟨v, g, hv⟩ | ⟨c, -, rfl⟩ | ⟨dr, v, -, rfl⟩ | ⟨a, v, -, rfl⟩ | ⟨p, -, rfl⟩ := exec_next_cases h
  · refine runService_inputKept hv ?_
    rintro (rfl | rfl)
    · exact hgetc g
    · exact hin g
  · exact ⟨rfl, rfl, rfl⟩
  · rw [afterReads_of_not_mem s _ hpoll]; exact ⟨rfl, rfl, rfl⟩
  · rw [afterReads_of_not_mem s _ hpoll]; exact ⟨rfl, rfl, rfl⟩
  · split <;> exact ⟨rfl, rfl, rfl⟩

/-- Settles O44: `exec_cellRead_other` for the cells, `exec_inputKept` for the input side. -/
theorem onlyStoresAndPollsChangeCells : Obligations.OnlyStoresAndPollsChangeCells :=
  fun _ _ _ h => ⟨fun _ hstore hpoll => exec_cellRead_other h hstore hpoll, exec_inputKept h⟩

/-! ### The fetch after a store (20_memory R55) -/

/-- Settles O38: ST runs with the PC past its own cell, and the next fetch, no poll, reads the memory it leaves. -/
theorem storeIsSeenByTheNextFetch : Obligations.StoreIsSeenByTheNextFetch := by
  intro s sr off9 hrun hpc hnext hdecode
  have stepped : step s = .next
      (memWrite (s.setPc (s.pc + 1#16)) (s.pc + 1#16 + sext16 off9) (s.reg sr)) := by
    rw [step_of_running s hrun, fetch_other s hpc, hdecode]
    rfl
  refine ⟨_, stepped, rfl, hrun, ?_, ?_⟩
  · rw [memWrite_cellRead, if_pos rfl]
  · rw [fetch_other _ hnext]
    simp only [memWrite_pc, setPc_pc, memWrite_cellRead, setPc_cellRead, eq_comm]

end Sys2Proof.Machine

/-! PROOFS. The decoder and the encoder (30_encoding): the layout of every row, as fields and their values. -/

namespace Sys2Proof.Machine

/-! ### Words that agree in some bits -/

theorem and_eq_and_iff_bits (v w m : Word) :
    v &&& m = w &&& m ↔ ∀ k < 16, m.getLsbD k = true → v.getLsbD k = w.getLsbD k := by
  refine ⟨fun h k _ hm => ?_, fun h => BitVec.eq_of_getLsbD_eq fun k hk => ?_⟩
  · simpa [hm] using congrArg (·.getLsbD k) h
  · cases hm : m.getLsbD k
    · simp [hm]
    · simp [hm, h k hk hm]

theorem extractLsb'_eq_iff_bits (v w : Word) (lo width : Nat) :
    v.extractLsb' lo width = w.extractLsb' lo width ↔
      ∀ k < 16, lo ≤ k ∧ k < lo + width → v.getLsbD k = w.getLsbD k := by
  refine ⟨fun h k _ ⟨hlo, hhi⟩ => ?_, fun h => BitVec.eq_of_getLsbD_eq fun k hk => ?_⟩
  · have inside : k - lo < width := by omega
    simpa [inside, Nat.add_sub_cancel' hlo] using congrArg (·.getLsbD (k - lo)) h
  · by_cases hw : lo + k < 16
    · simp [hk, h (lo + k) hw (by omega)]
    · simp [BitVec.getLsbD_of_ge _ _ (Nat.le_of_not_lt hw)]

theorem extractLsb'_one_eq_iff (w : Word) (k : Nat) (b : BitVec 1) :
    w.extractLsb' k 1 = b ↔ w.getLsbD k = b.getLsbD 0 := by
  refine ⟨fun h => by simp [← h], fun h => BitVec.eq_of_getLsbD_eq fun j hj => ?_⟩
  obtain rfl : j = 0 := by omega
  simp [h]

/-! ### The rows of the encoding table (30_encoding R62, R66) -/

/-- A field of the instruction word: its lowest bit and the value that stands there. -/
structure RowField where
  lo : Nat
  {width : Nat}
  val : BitVec width

/-- The fields of an instruction's row, the opcode first; the bits between them are unused (R68). -/
def rowFields : Instr → List RowField
  | .br n z p off9 =>
    [⟨12, 0x0#4⟩, ⟨11, BitVec.ofBool n⟩, ⟨10, BitVec.ofBool z⟩, ⟨9, BitVec.ofBool p⟩, ⟨0, off9⟩]
  | .addReg dr sr1 sr2 => [⟨12, 0x1#4⟩, ⟨9, dr⟩, ⟨6, sr1⟩, ⟨5, 0#1⟩, ⟨0, sr2⟩]
  | .addImm dr sr1 imm5 => [⟨12, 0x1#4⟩, ⟨9, dr⟩, ⟨6, sr1⟩, ⟨5, 1#1⟩, ⟨0, imm5⟩]
  | .ld dr off9 => [⟨12, 0x2#4⟩, ⟨9, dr⟩, ⟨0, off9⟩]
  | .st sr off9 => [⟨12, 0x3#4⟩, ⟨9, sr⟩, ⟨0, off9⟩]
  | .jsr off11 => [⟨12, 0x4#4⟩, ⟨11, 1#1⟩, ⟨0, off11⟩]
  | .jsrr baseR => [⟨12, 0x4#4⟩, ⟨11, 0#1⟩, ⟨6, baseR⟩]
  | .andReg dr sr1 sr2 => [⟨12, 0x5#4⟩, ⟨9, dr⟩, ⟨6, sr1⟩, ⟨5, 0#1⟩, ⟨0, sr2⟩]
  | .andImm dr sr1 imm5 => [⟨12, 0x5#4⟩, ⟨9, dr⟩, ⟨6, sr1⟩, ⟨5, 1#1⟩, ⟨0, imm5⟩]
  | .ldr dr baseR off6 => [⟨12, 0x6#4⟩, ⟨9, dr⟩, ⟨6, baseR⟩, ⟨0, off6⟩]
  | .str sr baseR off6 => [⟨12, 0x7#4⟩, ⟨9, sr⟩, ⟨6, baseR⟩, ⟨0, off6⟩]
  | .noHandler8 => [⟨12, 0x8#4⟩]
  | .not dr sr => [⟨12, 0x9#4⟩, ⟨9, dr⟩, ⟨6, sr⟩]
  | .ldi dr off9 => [⟨12, 0xA#4⟩, ⟨9, dr⟩, ⟨0, off9⟩]
  | .sti sr off9 => [⟨12, 0xB#4⟩, ⟨9, sr⟩, ⟨0, off9⟩]
  | .jmp baseR => [⟨12, 0xC#4⟩, ⟨6, baseR⟩]
  | .ret => [⟨12, 0xC#4⟩, ⟨6, 7#3⟩]
  | .noHandlerD => [⟨12, 0xD#4⟩]
  | .lea dr off9 => [⟨12, 0xE#4⟩, ⟨9, dr⟩, ⟨0, off9⟩]
  | .trap vec => [⟨12, 0xF#4⟩, ⟨0, vec⟩]
  | .getc => [⟨12, 0xF#4⟩, ⟨0, 0x20#8⟩]
  | .out => [⟨12, 0xF#4⟩, ⟨0, 0x21#8⟩]
  | .puts => [⟨12, 0xF#4⟩, ⟨0, 0x22#8⟩]
  | .inChar => [⟨12, 0xF#4⟩, ⟨0, 0x23#8⟩]
  | .putsp => [⟨12, 0xF#4⟩, ⟨0, 0x24#8⟩]
  | .halt => [⟨12, 0xF#4⟩, ⟨0, 0x25#8⟩]

/-- The word is in the instruction's row, with the instruction's operands. -/
def InRow (i : Instr) (w : Word) : Prop :=
  (rowFields i).Forall fun f => w.extractLsb' f.lo f.width = f.val

/-- The used bits of R68 are the bits of the row's fields. -/
theorem usedMask_bit_iff (i : Instr) :
    ∀ k < 16, (usedMask i).getLsbD k = true ↔
      ∃ f ∈ rowFields i, f.lo ≤ k ∧ k < f.lo + f.width := by
  cases i <;> simp only [usedMask, rowFields, List.exists_mem_cons_iff] <;> decide

/-- The other words of a row are those that agree with one of its words in the used bits. -/
theorem inRow_iff_used_bits_agree {i : Instr} {w : Word} (hw : InRow i w) (v : Word) :
    InRow i v ↔ v &&& usedMask i = w &&& usedMask i := by
  rw [InRow, List.forall_iff_forall_mem] at hw
  have agree : InRow i v ↔
      ∀ f ∈ rowFields i, v.extractLsb' f.lo f.width = w.extractLsb' f.lo f.width := by
    rw [InRow, List.forall_iff_forall_mem]
    exact forall₂_congr fun f hf => by rw [hw f hf]
  simp only [agree, and_eq_and_iff_bits, extractLsb'_eq_iff_bits]
  constructor
  · intro h k hk hm
    obtain ⟨f, hf, hin⟩ := (usedMask_bit_iff i k hk).mp hm
    exact h f hf k hk hin
  · exact fun h f hf k hk hin => h k hk ((usedMask_bit_iff i k hk).mpr ⟨f, hf, hin⟩)

theorem encode_inRow (i : Instr) : InRow i (encode i) := by
  cases i <;>
    simp (disch := decide) only [InRow, rowFields, List.Forall, encode, and_self,
      BitVec.extractLsb'_append_eq_of_add_le, BitVec.extractLsb'_append_eq_of_le,
      BitVec.extractLsb'_eq_self, Nat.reduceSub]

/-! ### The opcode (30_encoding R66) -/

theorem opcode_eq_iff_bits (w : Word) (op : BitVec 4) :
    w.extractLsb' 12 4 = op ↔ w.getLsbD 15 = op.getLsbD 3 ∧ w.getLsbD 14 = op.getLsbD 2 ∧
      w.getLsbD 13 = op.getLsbD 1 ∧ w.getLsbD 12 = op.getLsbD 0 := by
  constructor
  · rintro rfl
    simp
  · rintro ⟨h3, h2, h1, h0⟩
    refine BitVec.eq_of_getLsbD_eq fun k hk => ?_
    interval_cases k
    · simpa using h0
    · simpa using h1
    · simpa using h2
    · simpa using h3

theorem opcode_eq_iff_range (w : Word) (op : BitVec 4) :
    w.extractLsb' 12 4 = op ↔
      op.toNat * 0x1000 ≤ w.toNat ∧ w.toNat ≤ op.toNat * 0x1000 + 0xFFF := by
  rw [← BitVec.toNat_inj, BitVec.extractLsb'_toNat, Nat.shiftRight_eq_div_pow]
  omega

/-! ### The second names (30_encoding R72) -/

theorem trap_wf_iff (vec : BitVec 8) :
    (Instr.trap vec).wf = true ↔ vec.toNat < 0x20 ∨ 0x25 < vec.toNat := by
  simp [Instr.wf]

theorem decodeJmp_wf : ∀ baseR, (decodeJmp baseR).wf = true := by decide

theorem decodeTrap_wf : ∀ vec, (decodeTrap vec).wf = true := by decide

theorem decodeJmp_of_wf : ∀ baseR, (Instr.jmp baseR).wf = true → decodeJmp baseR = .jmp baseR := by
  decide

theorem decodeTrap_of_wf {vec : BitVec 8} (h : (Instr.trap vec).wf = true) :
    decodeTrap vec = .trap vec := by
  rw [decodeTrap, (trapService_eq_none_iff vec).mpr ((trap_wf_iff vec).mp h)]

/-- RET's row is JMP's, with its base register. -/
theorem inRow_decodeJmp_iff (baseR : Reg) (w : Word) :
    InRow (decodeJmp baseR) w ↔ w.extractLsb' 12 4 = 0xC#4 ∧ w.extractLsb' 6 3 = baseR := by
  unfold decodeJmp
  split
  · next h => subst h; rfl
  · rfl

/-- A service's row is TRAP's, with its vector. -/
theorem inRow_decodeTrap_iff (vec : BitVec 8) (w : Word) :
    InRow (decodeTrap vec) w ↔ w.extractLsb' 12 4 = 0xF#4 ∧ w.extractLsb' 0 8 = vec := by
  unfold decodeTrap trapService
  split_ifs
  case neg => rfl
  all_goals subst vec; rfl

/-! ### The decoder reads the row (30_encoding R67) -/

/-- The row's opcode picks the decoder's arm, and the arm reads the row's other fields. -/
theorem decode_eq_of_inRow {i : Instr} (hi : i.wf = true) {w : Word} (h : InRow i w) :
    decode w = i := by
  cases i <;>
    simp only [InRow, rowFields, List.Forall, extractLsb'_one_eq_iff, opcode_eq_iff_bits] at h <;>
    simp only [decode, fieldR, fieldBase, fieldSr2, fieldImm5, fieldOff6, fieldOff9, fieldOff11,
      fieldVec, h, BitVec.getLsbD_ofBool]
  case jmp baseR => exact decodeJmp_of_wf baseR hi
  case trap vec => exact decodeTrap_of_wf hi
  all_goals rfl

theorem decode_wf (w : Word) : (decode w).wf = true := by
  unfold decode
  split <;> try split
  case h_13 => exact decodeJmp_wf _
  case h_16 => exact decodeTrap_wf _
  all_goals rfl

/-- In each arm the four bits are the row's opcode, and the operands are fields of the word itself. -/
theorem decode_inRow (w : Word) : InRow (decode w) w := by
  unfold decode
  split <;> try split
  case h_13 =>
    simp only [inRow_decodeJmp_iff, opcode_eq_iff_bits, fieldBase, *]
    decide
  case h_16 =>
    simp only [inRow_decodeTrap_iff, opcode_eq_iff_bits, fieldVec, *]
    decide
  all_goals
    simp only [InRow, rowFields, List.Forall, extractLsb'_one_eq_iff, opcode_eq_iff_bits, fieldR,
      fieldBase, fieldSr2, fieldImm5, fieldOff6, fieldOff9, fieldOff11, BitVec.getLsbD_ofBool,
      decide_true, Bool.true_and, and_true, *]
    decide

/-- The words that decode to a well-formed instruction are those of its row. -/
theorem decode_eq_iff_inRow {i : Instr} (hi : i.wf = true) (w : Word) : decode w = i ↔ InRow i w :=
  ⟨fun h => h ▸ decode_inRow w, decode_eq_of_inRow hi⟩

/-! ### Decoding what is encoded -/

/-- Settles O49: the encoding is a word of the instruction's row. -/
theorem decodeOfEncodeIsTheInstruction : Obligations.DecodeOfEncodeIsTheInstruction :=
  fun i hi => decode_eq_of_inRow hi (encode_inRow i)

/-- Settles O51: what the decoder gives is well formed (`decode_wf`), so O49 applies to it. -/
theorem decodedInstructionsAreWellFormed : Obligations.DecodedInstructionsAreWellFormed :=
  fun w => ⟨decode_wf w, decodeOfEncodeIsTheInstruction (decode w) (decode_wf w)⟩

/-- Settles O50: `w` is in the row of what it decodes to, and the words of that row are those that agree with `w`
in the used bits. -/
theorem wordsDecodeAlikeIffTheirUsedBitsAgree :
    Obligations.WordsDecodeAlikeIffTheirUsedBitsAgree := by
  intro v w
  calc decode v = decode w
    _ ↔ InRow (decode w) v := decode_eq_iff_inRow (decode_wf w) v
    _ ↔ v &&& usedMask (decode w) = w &&& usedMask (decode w) :=
      inRow_iff_used_bits_agree (decode_inRow w) v

/-- Settles O28: the row of an opcode with no handler is the opcode alone, so it is a range of words. -/
theorem opcodesWithoutHandlerRaiseDecodeError :
    Obligations.OpcodesWithoutHandlerRaiseDecodeError := by
  refine ⟨fun w => ?_, fun w => ?_, fun s => exec_cause .noHandler8 _ s rfl,
    fun s => exec_cause .noHandlerD _ s rfl⟩
  · exact (decode_eq_iff_inRow rfl w).trans (opcode_eq_iff_range w 0x8#4)
  · exact (decode_eq_iff_inRow rfl w).trans (opcode_eq_iff_range w 0xD#4)

/-! ### The field layouts (30_encoding R62, R68) -/

theorem decode_jmpWord (x : BitVec 3) (baseR : Reg) (y : BitVec 6) :
    decode (0xC#4 ++ x ++ baseR ++ y) = decodeJmp baseR := by
  refine decode_eq_of_inRow (decodeJmp_wf baseR) ((inRow_decodeJmp_iff baseR _).mpr ?_)
  simp (disch := decide) only [BitVec.extractLsb'_append_eq_of_add_le,
    BitVec.extractLsb'_append_eq_of_le, BitVec.extractLsb'_eq_self, Nat.reduceSub, and_self]

theorem decode_trapWord (x : BitVec 4) (vec : BitVec 8) :
    decode (0xF#4 ++ x ++ vec) = decodeTrap vec := by
  refine decode_eq_of_inRow (decodeTrap_wf vec) ((inRow_decodeTrap_iff vec _).mpr ?_)
  simp (disch := decide) only [BitVec.extractLsb'_append_eq_of_add_le,
    BitVec.extractLsb'_append_eq_of_le, BitVec.extractLsb'_eq_self, Nat.reduceSub, and_self]

/-- Settles O48: each layout is a word of its instruction's row, whatever its unused bits are. -/
theorem decodeFollowsTheFieldLayouts : Obligations.DecodeFollowsTheFieldLayouts := by
  refine ⟨fun dr sr1 sr2 x => ⟨decode_eq_of_inRow rfl ?_, decode_eq_of_inRow rfl ?_⟩,
    fun dr sr1 imm5 => ⟨decode_eq_of_inRow rfl ?_, decode_eq_of_inRow rfl ?_⟩,
    fun dr sr x => decode_eq_of_inRow rfl ?_,
    fun n z p off9 => decode_eq_of_inRow rfl ?_,
    decode_jmpWord,
    fun off11 => decode_eq_of_inRow rfl ?_,
    fun x baseR y => decode_eq_of_inRow rfl ?_,
    fun r off9 => ⟨decode_eq_of_inRow rfl ?_, decode_eq_of_inRow rfl ?_,
      decode_eq_of_inRow rfl ?_, decode_eq_of_inRow rfl ?_, decode_eq_of_inRow rfl ?_⟩,
    fun r baseR off6 => ⟨decode_eq_of_inRow rfl ?_, decode_eq_of_inRow rfl ?_⟩,
    fun x => ⟨decode_trapWord x _, decode_trapWord x _, decode_trapWord x _,
      decode_trapWord x _, decode_trapWord x _, decode_trapWord x _⟩,
    fun x vec hvec =>
      (decode_trapWord x vec).trans (decodeTrap_of_wf ((trap_wf_iff vec).mpr hvec)),
    fun x => ⟨decode_eq_of_inRow rfl ?_, decode_eq_of_inRow rfl ?_⟩⟩
  all_goals
    simp (disch := decide) only [InRow, rowFields, List.Forall, and_self,
      BitVec.extractLsb'_append_eq_of_add_le, BitVec.extractLsb'_append_eq_of_le,
      BitVec.extractLsb'_eq_self, Nat.reduceSub]

end Sys2Proof.Machine

/-! PROOFS. The execution cycle (40_execution_cycle): what a step runs, when no step exists, which instructions
complete, and how a run ends. -/

namespace Sys2Proof.Machine

/-! ### What a step runs (40_execution_cycle R81 to R84) -/

/-- A fetch from KBSR_ADDR polls, then reads the cell the poll left (D12). -/
theorem fetch_kbsr {s : State} (h : s.pc = s.cfg.kbsrAddr) :
    fetch s = (cellRead (kbdPoll s) s.pc, (kbdPoll s).setPc (s.pc + 1#16)) := by
  have polled : afterRead s s.pc = kbdPoll s := if_pos h
  rw [fetch, memRead, polled]

/-- Settles O40: the two forms of the fetch; a cell with an encoding decodes to what was encoded (O49). -/
theorem stepRunsTheDecodedInstruction : Obligations.StepRunsTheDecodedInstruction := by
  intro s hrun
  have plain (hpc : s.pc ≠ s.cfg.kbsrAddr) :
      step s = exec (decode (cellRead s s.pc)) { s with pc := s.pc + 1#16 } := by
    rw [step_of_running s hrun, fetch_other s hpc]; rfl
  refine ⟨plain, fun hpc => ?_, fun i hi hpc hcell => ?_⟩
  · rw [step_of_running s hrun, fetch_kbsr hpc]; rfl
  · rw [plain hpc, hcell, decodeOfEncodeIsTheInstruction i hi]

/-! ### Which instructions complete (40_execution_cycle R88, R89) -/

theorem readChar_incomplete_iff (s : State) (echo : Byte → List Byte) :
    (¬ ∃ t, readChar s echo = .next t) ↔ s.input = [] := by
  obtain ⟨hi, e⟩ | ⟨c, rest, hi, e⟩ := readChar_cases s echo <;> simp [hi, e]

theorem stringAt_eq_none_iff (s : State) (a : Word) :
    stringAt s a = none ↔ ∀ b, cellRead s b ≠ 0x0000#16 := by
  refine ⟨fun hnone b hb => ?_, stringAt_eq_none s a⟩
  obtain ⟨n, hn, hz, hnz⟩ := exists_first_zero s a ⟨b, hb⟩
  cases hnone.symm.trans (stringAt_eq_some s a n hn hz hnz)

theorem emitString_incomplete_iff (s : State) (bytes : Word → List Byte) :
    (¬ ∃ t, emitString s bytes = .next t) ↔ ∀ a, cellRead s a ≠ 0x0000#16 := by
  rw [← stringAt_eq_none_iff s (s.reg 0#3)]
  obtain ⟨hs, e⟩ | ⟨cells, hs, e⟩ := emitString_cases s bytes <;> simp [hs, e]

theorem runService_incomplete_iff (s : State) (v : TrapService) :
    (¬ ∃ t, runService s v = .next t) ↔
      ((v = .getc ∨ v = .inChar) ∧ s.input = []) ∨
      ((v = .puts ∨ v = .putsp) ∧ ∀ a, cellRead s a ≠ 0x0000#16) := by
  cases v with
  | getc => simpa [runService] using readChar_incomplete_iff s _
  | inChar => simpa [runService] using readChar_incomplete_iff (emit s s.cfg.inPrompt) _
  | puts => simpa [runService] using emitString_incomplete_iff s _
  | putsp => simpa [runService] using emitString_incomplete_iff s _
  | out => simp [runService]
  | halt => simp [runService]

theorem exec_completes_of_no_service {i : Instr} (h : serviceOf i = none) (s : State) :
    ∃ t, exec i s = .next t := by
  obtain ⟨v, g⟩ | ⟨c, g⟩ | ⟨dr, v, g⟩ | ⟨a, v, g⟩ | ⟨p, g⟩ := instr_groups s i
  · cases h.symm.trans g
  · exact ⟨_, exec_cause i c s g⟩
  · exact ⟨_, exec_dest g⟩
  · exact ⟨_, exec_store g⟩
  · exact ⟨_, exec_control g⟩

/-- Settles O32: only a service routine can fail to complete, and `runService_incomplete_iff` says which and when. -/
theorem everyInstructionCompletesButTheNamedWaits :
    Obligations.EveryInstructionCompletesButTheNamedWaits := by
  intro i s
  cases hv : serviceOf i with
  | none => simp [exec_completes_of_no_service hv s]
  | some v =>
    rw [exec_service i v s hv]
    simpa only [Option.some.injEq] using runService_incomplete_iff s v

/-! ### When no step exists (40_execution_cycle R80) -/

theorem step_of_ended {s : State} (h : s.status ≠ .running) :
    step s = .fault (.noStep s.status) := by
  unfold step
  cases hs : s.status with
  | running => exact absurd hs h
  | halted => rfl
  | faulted cause fpc => rfl

theorem run_succ_of_fault {M : Host.Core} {s : M.State} {r : M.Fault} (h : M.step s = .fault r)
    (k : Nat) : M.run (k + 1) s = .fault r := by
  rw [Host.Core.run, h]

theorem readChar_ne_noStep (s : State) (echo : Byte → List Byte) (st : RunStatus) :
    readChar s echo ≠ .fault (.noStep st) := by
  obtain ⟨-, e⟩ | ⟨c, rest, -, e⟩ := readChar_cases s echo <;> simp [e]

theorem emitString_ne_noStep (s : State) (bytes : Word → List Byte) (st : RunStatus) :
    emitString s bytes ≠ .fault (.noStep st) := by
  obtain ⟨-, e⟩ | ⟨cells, -, e⟩ := emitString_cases s bytes <;> simp [e]

theorem runService_ne_noStep (s : State) (v : TrapService) (st : RunStatus) :
    runService s v ≠ .fault (.noStep st) := by
  cases v with
  | getc => exact readChar_ne_noStep s _ st
  | inChar => exact readChar_ne_noStep _ _ st
  | puts => exact emitString_ne_noStep s _ st
  | putsp => exact emitString_ne_noStep s _ st
  | out => simp [runService]
  | halt => simp [runService]

theorem exec_ne_noStep (i : Instr) (s : State) (st : RunStatus) :
    exec i s ≠ .fault (.noStep st) := by
  cases hv : serviceOf i with
  | none =>
    obtain ⟨t, e⟩ := exec_completes_of_no_service hv s
    simp [e]
  | some v =>
    rw [exec_service i v s hv]
    exact runService_ne_noStep s v st

/-- Settles O30: an ended run faults at its first step, and exec never raises `noStep`. -/
theorem onlyARunningMachineSteps : Obligations.OnlyARunningMachineSteps := by
  refine ⟨fun s h => ⟨step_of_ended h, run_succ_of_fault (M := core) (step_of_ended h)⟩, ?_⟩
  intro s st hrun
  rw [step_of_running s hrun]
  exact exec_ne_noStep _ _ st

/-! ### How a run ends (40_execution_cycle R87; 60_exceptions R140, R143) -/

@[simp] theorem afterReads_status (s : State) (as : List Word) :
    (afterReads s as).status = s.status :=
  afterReads_induction (P := fun u => u.status = s.status) (by simp) as s rfl

theorem readChar_status {s t : State} {echo : Byte → List Byte} (h : readChar s echo = .next t) :
    t.status = s.status := by
  obtain ⟨-, e⟩ | ⟨c, rest, -, e⟩ := readChar_cases s echo <;> rw [e] at h <;> cases h
  rfl

theorem runService_status {s t : State} {v : TrapService} (h : runService s v = .next t) :
    t.status = if v = .halt then .halted else s.status := by
  cases v with
  | getc => exact readChar_status h
  | inChar => exact readChar_status (s := emit s s.cfg.inPrompt) h
  | puts => obtain ⟨bs, rfl⟩ := emitString_emits h; rfl
  | putsp => obtain ⟨bs, rfl⟩ := emitString_emits h; rfl
  | out => cases h; rfl
  | halt => cases h; rfl

/-- An instruction that runs a service routine raises no exception. -/
theorem causeOf_eq_none_of_service {i : Instr} {v : TrapService} (h : serviceOf i = some v) :
    causeOf i = none := by
  cases i <;> try cases h
  case trap vec =>
    refine if_neg fun hvec => ?_
    cases h.symm.trans ((trapService_eq_none_iff vec).mpr hvec)
  all_goals rfl

theorem exec_status_of_plain {i : Instr} {s t : State} (hservice : serviceOf i = none)
    (hcause : causeOf i = none) (h : exec i s = .next t) : t.status = s.status := by
  obtain ⟨v, g, -⟩ | ⟨c, g, -⟩ | ⟨dr, v, -, rfl⟩ | ⟨a, v, -, rfl⟩ | ⟨p, -, rfl⟩ := exec_next_cases h
  · cases hservice.symm.trans g
  · cases hcause.symm.trans g
  · simp
  · simp
  · rw [setPc_status]; split <;> rfl

/-- The run status an instruction that completes leaves: HALT's, an exception's, or the one it found. -/
theorem exec_status_cases {i : Instr} {s t : State} (h : exec i s = .next t) :
    (serviceOf i = some .halt ∧ causeOf i = none ∧ t.status = .halted) ∨
    (∃ c, serviceOf i ≠ some .halt ∧ causeOf i = some c ∧ t.status = .faulted c (s.pc - 1#16)) ∨
    (serviceOf i ≠ some .halt ∧ causeOf i = none ∧ t.status = s.status) := by
  cases hservice : serviceOf i with
  | some v =>
    have hcause := causeOf_eq_none_of_service hservice
    rw [exec_service i v s hservice] at h
    have hstatus := runService_status h
    by_cases hv : v = .halt <;> simp [hv, hcause, hstatus]
  | none =>
    cases hcause : causeOf i with
    | some c =>
      rw [exec_cause i c s hcause] at h; cases h
      simp
    | none => simp [exec_status_of_plain hservice hcause h]

/-- Settles O31: `exec_status_cases` after the fetch, which leaves the run Running and the PC at fpc + 1. -/
theorem runsEndOnlyByHaltOrException : Obligations.RunsEndOnlyByHaltOrException := by
  intro s t h
  obtain ⟨hrun, hexec⟩ := step_next s t h
  obtain ⟨hhalt, hcause, hstatus⟩ | ⟨c, hhalt, hcause, hstatus⟩ | ⟨hhalt, hcause, hstatus⟩ :=
    exec_status_cases hexec
  · simp [Succeeded, hrun, hhalt, hcause, hstatus]
  · rw [fetch_pc, BitVec.add_sub_cancel] at hstatus
    simp [Succeeded, hrun, hhalt, hcause, hstatus, eq_comm]
  · rw [fetch_status, hrun] at hstatus
    simp [Succeeded, hrun, hhalt, hcause, hstatus]

end Sys2Proof.Machine

/-! PROOFS. The operate instructions (41_operate): ADD, AND and NOT, and subtraction from them. -/

namespace Sys2Proof.Machine

/-! ### Instructions that write DR -/

theorem writeDest_afterReads_writesDest (s : State) (as : List Word) (dr : Reg) (v : Word) :
    WritesDest dr v s (writeDest (afterReads s as) dr v) := by
  refine ⟨?_, writeDest_cond _ dr v, fun q hq => ?_, ?_, ?_, ?_, ?_⟩
  · rw [writeDest_reg, if_pos rfl]
  · rw [List.mem_singleton] at hq
    rw [writeDest_reg, if_neg hq, afterReads_reg]
  all_goals simp

/-- An instruction that writes DR completes, and beside DR and COND it changes only what its MemReads change: an
operate instruction and LEA have none. -/
theorem exec_writesDest {s : State} {i : Instr} {dr : Reg} {v : Word}
    (h : destWrite s i = some (dr, v)) :
    ∃ t, exec i s = .next t ∧ WritesDest dr v s t ∧
      CellsAndInputKept (afterReads s (readAddrs s i)) t :=
  ⟨_, exec_dest h, writeDest_afterReads_writesDest s _ dr v, fun a _ => writeDest_cellRead _ dr v a,
    rfl, rfl, rfl⟩

/-! ### The effects (R90 to R94) -/

/-- Settles O3: `exec_writesDest` for both modes; word addition is the sum modulo 65536. -/
theorem addWritesTheSumAndItsFlags : Obligations.AddWritesTheSumAndItsFlags := by
  refine ⟨fun dr sr1 sr2 s => ?_, fun dr sr1 imm5 s => ?_⟩
  · rw [← BitVec.add_def]
    exact exec_writesDest (i := .addReg dr sr1 sr2) rfl
  · rw [← BitVec.add_def]
    exact exec_writesDest (i := .addImm dr sr1 imm5) rfl

/-- Settles O4: `exec_writesDest` for both modes; `&&&` is bitwise. -/
theorem andWritesTheConjunctionAndItsFlags : Obligations.AndWritesTheConjunctionAndItsFlags := by
  refine ⟨fun dr sr1 sr2 s => ?_, fun dr sr1 imm5 s => ?_⟩
  · obtain ⟨t, ht, hdest, hkept⟩ := exec_writesDest (s := s) (i := .andReg dr sr1 sr2) rfl
    exact ⟨t, _, ht, fun _ _ => BitVec.getLsbD_and, hdest, hkept⟩
  · obtain ⟨t, ht, hdest, hkept⟩ := exec_writesDest (s := s) (i := .andImm dr sr1 imm5) rfl
    exact ⟨t, _, ht, fun _ _ => BitVec.getLsbD_and, hdest, hkept⟩

/-- Settles O5: `exec_writesDest`; `~~~` is bitwise below bit 16. -/
theorem notWritesTheComplementAndItsFlags : Obligations.NotWritesTheComplementAndItsFlags := by
  intro dr sr s
  obtain ⟨t, ht, hdest, hkept⟩ := exec_writesDest (s := s) (i := .not dr sr) rfl
  exact ⟨t, _, ht, fun i hi => by simp [hi], hdest, hkept⟩

/-! ### Subtraction (R95) -/

/-- Settles O6: NOT and ADD #1 leave the two's complement of the subtrahend in the scratch register, and the
minuend in its own. -/
theorem notAddOneAddSubtracts : Obligations.NotAddOneAddSubtracts := by
  intro dr d sr1 sr2 s hne
  obtain ⟨t, ht, ⟨tvalue, -, tkept, -⟩, -⟩ := exec_writesDest (s := s) (i := .not d sr2) rfl
  obtain ⟨u, hu, ⟨uvalue, -, ukept, -⟩, -⟩ := exec_writesDest (s := t) (i := .addImm d d 1#5) rfl
  obtain ⟨v, hv, ⟨vvalue, vcond, -⟩, -⟩ := exec_writesDest (s := u) (i := .addReg dr sr1 d) rfl
  have other : sr1 ∉ [d] := by simpa using hne.symm
  have minuend : u.reg sr1 = s.reg sr1 := (ukept sr1 other).trans (tkept sr1 other)
  have subtrahend : u.reg d = -s.reg sr2 := by
    rw [uvalue, tvalue, BitVec.neg_eq_not_add]; rfl
  have difference : u.reg sr1 + u.reg d = s.reg sr1 - s.reg sr2 := by
    rw [minuend, subtrahend, BitVec.sub_eq_add_neg]
  rw [difference] at vvalue vcond
  exact ⟨t, u, v, ht, hu, hv, vvalue, vcond⟩

/-! ### Words of the instruction tables (41_operate R96, 42_control R105, 43_load_store R118, 44_trap R133) -/

/-- Settles O52: the decoder runs on thirteen closed words. -/
theorem wordsOfTheSpecTablesDecode : Obligations.WordsOfTheSpecTablesDecode := by
  unfold Obligations.WordsOfTheSpecTablesDecode
  decide

end Sys2Proof.Machine

/-! PROOFS. The control transfers (42_control): BR, JMP and RET, which set the PC alone, and the calls JSR and JSRR,
which leave the return address in R7 as well. -/

namespace Sys2Proof.Machine

/-! ### Jumps and calls -/

/-- A control transfer that writes no register sets the PC and changes nothing else. -/
theorem exec_jump {s : State} {i : Instr} {p : Word} (hregs : destRegs i = [])
    (h : controlTarget s i = some p) : exec i s = .next (s.setPc p) := by
  rw [exec_control h, if_pos hregs]

/-- A control transfer that writes R7 leaves the return address there, sets the PC and changes nothing else. -/
theorem exec_call {s : State} {i : Instr} {p : Word} (hlink : destRegs i = [7#3])
    (h : controlTarget s i = some p) :
    ∃ t, exec i s = .next t ∧ t.reg 7#3 = s.pc ∧ t.pc = p ∧ RegsKeptBut [7#3] s t ∧
      t.cond = s.cond ∧ RunKept s t ∧ CellsAndInputKept s t := by
  have hexec : exec i s = .next ((link s).setPc p) := by
    rw [exec_control h, if_neg (by simp [hlink])]
  refine ⟨_, hexec, ?_, setPc_pc _ p, fun r hr => ?_, rfl, ⟨rfl, rfl, rfl⟩, fun _ _ => rfl, rfl, rfl, rfl⟩
  · rw [setPc_reg, link_reg, if_pos rfl]
  · rw [List.mem_singleton] at hr
    rw [setPc_reg, link_reg, if_neg hr]

/-- RET goes where R7 says, and a call leaves the return address there. -/
theorem exec_ret_after_call {s : State} {i : Instr} {p : Word} (hlink : destRegs i = [7#3])
    (h : controlTarget s i = some p) :
    ∃ t u, exec i s = .next t ∧ exec .ret t = .next u ∧ u.pc = s.pc := by
  obtain ⟨t, ht, hreturn, -⟩ := exec_call hlink h
  exact ⟨t, _, ht, exec_jump rfl rfl, hreturn⟩

/-! ### The effects (R100 to R104) -/

/-- Settles O11: JSR and JSRR are calls, also where JSRR's BaseR is R7. -/
theorem returnResumesAfterTheCall : Obligations.ReturnResumesAfterTheCall :=
  ⟨fun off11 _ => exec_ret_after_call (i := .jsr off11) rfl rfl,
    fun baseR _ => exec_ret_after_call (i := .jsrr baseR) rfl rfl⟩

/-- Settles O7: a branch not taken sets the PC to the value it has, so that nothing changes. -/
theorem branchTestsTheMaskAgainstCond : Obligations.BranchTestsTheMaskAgainstCond := by
  intro n z p off9 s
  refine ⟨_, exec_jump (i := .br n z p off9) rfl rfl, fun taken => ?_, fun notTaken => ?_⟩
  · rw [if_pos ((branchTaken_iff n z p s.cond).mpr taken)]; rfl
  · rw [if_neg (mt (branchTaken_iff n z p s.cond).mp notTaken)]; rfl

/-- Settles O8: both are jumps to a register's value. -/
theorem jumpSetsThePcFromTheBase : Obligations.JumpSetsThePcFromTheBase :=
  ⟨fun baseR _ => exec_jump (i := .jmp baseR) rfl rfl, fun _ => exec_jump (i := .ret) rfl rfl⟩

/-- Settles O9: JSR is a call to its PC-relative target. -/
theorem jsrLinksAndJumpsRelative : Obligations.JsrLinksAndJumpsRelative :=
  fun off11 _ => exec_call (i := .jsr off11) rfl rfl

/-- Settles O10: JSRR is a call; its target is the new R7 only where BaseR is R7 and the link comes first. -/
theorem jsrrLinksAndJumpsThroughTheBase : Obligations.JsrrLinksAndJumpsThroughTheBase := by
  intro baseR s
  obtain ⟨t, ht, hreturn, hpc, hkept⟩ := exec_call (s := s) (i := .jsrr baseR) rfl rfl
  refine ⟨t, ht, hreturn, fun hne => ?_, fun hbase hfirst => ?_, fun hbase hlast => ?_, hkept⟩
  · rw [hpc, if_neg (fun both => hne both.1)]
  · rw [hpc, if_pos ⟨hbase, hfirst⟩]
  · rw [hpc, if_neg (by simp [hlast]), hbase]

end Sys2Proof.Machine

/-! PROOFS. The loads, LEA and the stores (43_load_store): what the MemReads give goes to DR, and a store writes one
cell of what they leave. -/

namespace Sys2Proof.Machine

/-! ### Loads -/

/-- MemRead of a pointer and then of the data, neither at KBSR_ADDR, is plain (R42). -/
theorem memRead_memRead_other (s : State) (a : Word) (ha : a ≠ s.cfg.kbsrAddr)
    (hptr : cellRead s a ≠ s.cfg.kbsrAddr) :
    memRead (memRead s a).2 (memRead s a).1 = (cellRead s (cellRead s a), s) := by
  rw [memRead_other s a ha, memRead_other s _ hptr]

/-- A load whose last MemRead answers `r` writes `r.1` to DR and leaves the cells and the input side of `r.2`; where
its MemReads leave the state as it was, the load has no effect on these. -/
theorem exec_load {s : State} {i : Instr} {dr : Reg} {r : Word × State}
    (hdest : destWrite s i = some (dr, r.1)) (hreads : afterReads s (readAddrs s i) = r.2) :
    ∃ t, exec i s = .next t ∧ (WritesDest dr r.1 s t ∧ CellsAndInputKept r.2 t) ∧
      ∀ w, r = (w, s) → t.reg dr = w ∧ CellsAndInputKept s t := by
  obtain ⟨t, ht, hwrites, hkept⟩ := exec_writesDest hdest
  rw [hreads] at hkept
  refine ⟨t, ht, ⟨hwrites, hkept⟩, ?_⟩
  rintro w rfl
  obtain ⟨hvalue, -⟩ := hwrites
  exact ⟨hvalue, hkept⟩

/-- A load with one MemRead: LD and LDR differ in its address alone. -/
theorem exec_load_once {s : State} {i : Instr} {dr : Reg} {ea : Word}
    (hdest : destWrite s i = some (dr, (memRead s ea).1)) (hreads : readAddrs s i = [ea]) :
    ∃ t, exec i s = .next t ∧ WritesDest dr (memRead s ea).1 s t ∧
      CellsAndInputKept (memRead s ea).2 t ∧
      (ea ≠ s.cfg.kbsrAddr → t.reg dr = cellRead s ea ∧ CellsAndInputKept s t) := by
  obtain ⟨t, ht, ⟨hwrites, hkept⟩, hplain⟩ := exec_load hdest (by rw [hreads]; rfl)
  exact ⟨t, ht, hwrites, hkept, fun hea => hplain _ (memRead_other s ea hea)⟩

/-- Settles O13: the second MemRead runs on the state the first leaves; off KBSR_ADDR both are plain. -/
theorem ldiLoadsThroughThePointer : Obligations.LdiLoadsThroughThePointer := by
  intro dr off9 s
  obtain ⟨t, ht, hload, hplain⟩ := exec_load (s := s) (i := .ldi dr off9)
    (r := memRead (memRead s (pcRel9 s off9)).2 (memRead s (pcRel9 s off9)).1) rfl rfl
  exact ⟨t, ht, hload, fun hpa hea => hplain _ (memRead_memRead_other s _ hpa hea)⟩

/-- Settles O12: LD is a load with one MemRead, at its PC-relative address. -/
theorem ldLoadsPcRelative : Obligations.LdLoadsPcRelative :=
  fun dr off9 _ => exec_load_once (i := .ld dr off9) rfl rfl

/-- Settles O14: LDR is a load with one MemRead; its address comes from the registers before the write of DR. -/
theorem ldrLoadsBasePlusOffset : Obligations.LdrLoadsBasePlusOffset :=
  fun dr baseR off6 _ => exec_load_once (i := .ldr dr baseR off6) rfl rfl

/-! ### LEA -/

/-- Settles O15: LEA writes DR and has no MemRead; word addition is the sum modulo 65536. -/
theorem leaWritesTheAddressAndItsFlags : Obligations.LeaWritesTheAddressAndItsFlags := by
  intro dr off9 s
  rw [← BitVec.add_def]
  exact exec_writesDest (i := .lea dr off9) rfl

/-! ### Stores -/

theorem afterReads_coreKept (s : State) (as : List Word) : CoreKept s (afterReads s as) :=
  ⟨fun r _ => afterReads_reg s as r, afterReads_pc s as, afterReads_cond s as, afterReads_status s as,
    afterReads_outSeq s as, afterReads_cfg s as⟩

/-- A store writes one cell of the state its MemReads leave: STI has one, ST and STR none. -/
theorem exec_storesWord {s : State} {i : Instr} {a v : Word} (h : storeWrite s i = some (a, v)) :
    ∃ t, exec i s = .next t ∧ StoresWord a v (afterReads s (readAddrs s i)) t ∧ CoreKept s t :=
  ⟨_, exec_store h, memWrite_storesWord _ a v, afterReads_coreKept s _⟩

/-- A store without MemReads writes one cell and changes nothing else. -/
theorem exec_storesWord_of_no_reads {s : State} {i : Instr} {a v : Word}
    (h : storeWrite s i = some (a, v)) (hreads : readAddrs s i = []) :
    ∃ t, exec i s = .next t ∧ StoresWord a v s t := by
  obtain ⟨t, ht, hstores, -⟩ := exec_storesWord h
  rw [hreads] at hstores
  exact ⟨t, ht, hstores⟩

/-- Settles O16: neither ST nor STR has a MemRead. -/
theorem stAndStrStoreOneCell : Obligations.StAndStrStoreOneCell :=
  ⟨fun sr off9 _ => exec_storesWord_of_no_reads (i := .st sr off9) rfl rfl,
    fun sr baseR off6 _ => exec_storesWord_of_no_reads (i := .str sr baseR off6) rfl rfl⟩

/-- Settles O17: the store follows the pointer's MemRead, which off KBSR_ADDR leaves the state as it was. -/
theorem stiStoresThroughThePointer : Obligations.StiStoresThroughThePointer := by
  intro sr off9 s
  obtain ⟨t, ht, hstores, hcore⟩ := exec_storesWord (s := s) (i := .sti sr off9) rfl
  refine ⟨t, ht, hstores, hcore, fun hpa => ?_⟩
  have stored : StoresWord (memRead s (pcRel9 s off9)).1 (s.reg sr) (memRead s (pcRel9 s off9)).2 t :=
    hstores
  rwa [memRead_other s (pcRel9 s off9) hpa] at stored

end Sys2Proof.Machine

/-! PROOFS. TRAP and its service routines (44_trap): the vector's routine, the character routines GETC and IN, the
output routines OUT, PUTS and PUTSP, and HALT. -/

namespace Sys2Proof.Machine

/-! ### The vector's routine (R120, R128) -/

/-- Instructions that run the same service routine do the same. -/
theorem exec_eq_of_serviceOf_eq {i j : Instr} {v : TrapService} (hi : serviceOf i = some v)
    (hj : serviceOf j = some v) (s : State) : exec i s = exec j s :=
  (exec_service i v s hi).trans (exec_service j v s hj).symm

/-- Settles O18: a vector of the table runs the routine its name runs; any other only raises TrapError. -/
theorem trapDispatchesOnTheVector : Obligations.TrapDispatchesOnTheVector :=
  ⟨fun s => ⟨exec_eq_of_serviceOf_eq (v := .getc) rfl rfl s, exec_eq_of_serviceOf_eq (v := .out) rfl rfl s,
    exec_eq_of_serviceOf_eq (v := .puts) rfl rfl s, exec_eq_of_serviceOf_eq (v := .inChar) rfl rfl s,
    exec_eq_of_serviceOf_eq (v := .putsp) rfl rfl s, exec_eq_of_serviceOf_eq (v := .halt) rfl rfl s⟩,
  fun vec s hvec => ⟨_, exec_cause (.trap vec) _ s (if_pos hvec), rfl, rfl⟩⟩

/-- The vectors of the two routines that walk a string. -/
theorem trapService_walks_string_iff (vec : BitVec 8) :
    (trapService vec = some .puts ∨ trapService vec = some .putsp) ↔
      (vec = 0x22#8 ∨ vec = 0x24#8) := by
  revert vec; decide

/-- Settles O19: TRAP is no control transfer, and the hypotheses exclude each case of O32 in which a service routine
does not complete. -/
theorem trapCompletesOnEveryServiceVector : Obligations.TrapCompletesOnEveryServiceVector := by
  intro vec s _ _ hinput hzero
  have completes : ∃ t, exec (.trap vec) s = .next t := by
    by_contra hno
    obtain ⟨hchar, hnone⟩ | ⟨hstring, hnonzero⟩ :=
      (everyInstructionCompletesButTheNamedWaits (.trap vec) s).mp hno
    · exact hinput ((trapService_takes_char_iff vec).mp hchar) hnone
    · obtain ⟨a, ha⟩ := hzero ((trapService_walks_string_iff vec).mp hstring)
      exact hnonzero a ha
  obtain ⟨t, ht⟩ := completes
  exact ⟨t, ht, exec_pc ht⟩

/-! ### Characters (R122, R125, R130, R131) -/

/-- A character's word has bit 15 clear, so COND never becomes NEGATIVE. -/
theorem flagsOf_zextByte (c : Byte) :
    flagsOf (zextByte c) = if c = 0x00#8 then .zero else .positive := by
  have zero : c = 0x00#8 ↔ c.toNat = 0 := BitVec.toNat_inj.symm
  have hlt : c.toNat < 256 := c.isLt
  obtain ⟨hv, e⟩ | ⟨hv, -⟩ | ⟨hv, -, e⟩ := flagsOf_cases (zextByte c) <;> rw [zextByte_toNat] at hv
  · rw [e, if_pos (zero.mpr hv)]
  · omega
  · rw [e, if_neg (fun h => by have := zero.mp h; omega)]

/-- GETC's and IN's shared part: with the character taken and its echo emitted, it is written to R0 as DR. -/
theorem readChar_writesDest {s : State} {c : Byte} {rest : List Byte} (hi : s.input = c :: rest)
    (echo : Byte → List Byte) :
    ∃ t, readChar s echo = .next t ∧
      WritesDest 0#3 (zextByte c) (emit { s with input := rest } (echo c)) t ∧
      CellsAndInputKept (emit { s with input := rest } (echo c)) t := by
  obtain ⟨hnone, -⟩ | ⟨c', rest', hi', e⟩ := readChar_cases s echo
  · cases hi.symm.trans hnone
  · cases hi.symm.trans hi'
    exact ⟨_, e, writeDest_afterReads_writesDest _ [] 0#3 _, fun _ _ => rfl, rfl, rfl, rfl⟩

theorem readChar_waits {s : State} (hi : s.input = []) (echo : Byte → List Byte) :
    readChar s echo = .fault (.waitsForInput s) := by
  obtain ⟨-, e⟩ | ⟨c, rest, hi', -⟩ := readChar_cases s echo
  · exact e
  · cases hi.symm.trans hi'

/-- Settles O20: GETC is the shared part with an empty echo. -/
theorem getcTakesOneCharacterWithoutEcho : Obligations.GetcTakesOneCharacterWithoutEcho := by
  refine ⟨fun s c rest hi => ?_, fun s hi => readChar_waits hi _⟩
  obtain ⟨t, ht, ⟨hvalue, hcond, hregs, hpc, hstatus, hout, hcfg⟩, hcells, hin, hdraws, hpolls⟩ :=
    readChar_writesDest hi (fun _ => [])
  rw [zextByte_eq_ofNat] at hvalue
  rw [flagsOf_zextByte] at hcond
  rw [emit_outSeq, List.append_nil] at hout
  exact ⟨t, ht, hin, hvalue, hcond, hregs, hpc, ⟨hstatus, hout, hcfg⟩, hcells, hdraws, hpolls⟩

/-- Settles O21: IN is the shared part after the prompt, and echoes the character. -/
theorem inPromptsTakesAndEchoesOneCharacter : Obligations.InPromptsTakesAndEchoesOneCharacter := by
  refine ⟨fun s c rest hi => ?_, fun s hi => readChar_waits (s := emit s s.cfg.inPrompt) hi _⟩
  obtain ⟨t, ht, ⟨hvalue, hcond, hregs, hpc, hstatus, hout, hcfg⟩, hcells, hin, hdraws, hpolls⟩ :=
    readChar_writesDest (s := emit s s.cfg.inPrompt) hi (fun c => [c])
  rw [zextByte_eq_ofNat] at hvalue
  rw [flagsOf_zextByte] at hcond
  exact ⟨t, ht, hin, hout, hvalue, hcond, hregs, hpc, hstatus, hcfg, hcells, hdraws, hpolls⟩

/-- Settles O36: a delivering poll leaves INPUT without its first character, and GETC takes from what is left. -/
theorem polledCharacterIsNotReadAgain : Obligations.PolledCharacterIsNotReadAgain := by
  intro s c d rest hi hdraw
  obtain ⟨hpolled, -⟩ := kbdPoll_delivers hi hdraw
  obtain ⟨t, ht, ⟨hvalue, -⟩, -, hin, -⟩ := readChar_writesDest hpolled (fun _ => [])
  rw [zextByte_eq_ofNat] at hvalue
  exact ⟨t, ht, hvalue, hin⟩

/-! ### Bytes of a word (20_memory R46) -/

theorem lowByte_eq_ofNat (w : Word) : lowByte w = BitVec.ofNat 8 w.toNat := rfl

theorem highByte_eq_ofNat (w : Word) : highByte w = BitVec.ofNat 8 (w.toNat / 256) := by
  rw [highByte, BitVec.extractLsb', Nat.shiftRight_eq_div_pow]

theorem highByte_eq_zero_iff (w : Word) : highByte w = 0x00#8 ↔ w.toNat / 256 = 0 := by
  have hlt : w.toNat < 65536 := w.isLt
  rw [highByte_eq_ofNat, ← BitVec.toNat_inj, BitVec.toNat_ofNat, BitVec.toNat_ofNat]
  omega

theorem packedBytes_eq (w : Word) :
    packedBytes w = BitVec.ofNat 8 w.toNat ::
      (if w.toNat / 256 = 0 then [] else [BitVec.ofNat 8 (w.toNat / 256)]) := by
  rw [← lowByte_eq_ofNat, ← highByte_eq_ofNat, packedBytes]
  simp only [highByte_eq_zero_iff]
  split <;> rfl

/-! ### Output (R123, R124, R126) -/

/-- Settles O22: the low byte is the value modulo 256. -/
theorem outEmitsTheLowByteOfR0 : Obligations.OutEmitsTheLowByteOfR0 := by
  refine fun s => ⟨_, lowByte (s.reg 0#3), rfl, ?_, rfl⟩
  rw [lowByte_eq_ofNat, BitVec.toNat_ofNat]

/-- PUTS's and PUTSP's shared part emits the bytes of each cell before the first zero cell. -/
theorem emitString_of_first_zero (s : State) (n : Nat) (hn : n < 65536)
    (hz : cellRead s (s.reg 0#3 + BitVec.ofNat 16 n) = 0x0000#16)
    (hnz : ∀ k < n, cellRead s (s.reg 0#3 + BitVec.ofNat 16 k) ≠ 0x0000#16)
    (bytes : Word → List Byte) :
    emitString s bytes = .next (emit s ((List.range n).flatMap fun k =>
      bytes (cellRead s (s.reg 0#3 + BitVec.ofNat 16 k)))) := by
  simp only [emitString, stringAt_eq_some s _ n hn hz hnz, List.flatMap_map]

/-- Settles O23: each cell gives the one byte that is its low byte. -/
theorem putsEmitsTheCellsBeforeTheFirstZero : Obligations.PutsEmitsTheCellsBeforeTheFirstZero := by
  intro s n hn hz hnz
  rw [List.map_eq_flatMap]
  exact emitString_of_first_zero s n hn hz hnz (fun w => [lowByte w])

/-- Settles O24: each cell gives its packed bytes. -/
theorem putspEmitsPackedPairsBeforeTheFirstZero :
    Obligations.PutspEmitsPackedPairsBeforeTheFirstZero := by
  intro s n hn hz hnz
  refine (emitString_of_first_zero s n hn hz hnz packedBytes).trans ?_
  simp only [packedBytes_eq, emit]

theorem emitString_completes {s : State} (h : ∃ a, cellRead s a = 0x0000#16)
    (bytes : Word → List Byte) : ∃ t, emitString s bytes = .next t := by
  by_contra hno
  obtain ⟨a, ha⟩ := h
  exact (emitString_incomplete_iff s bytes).mp hno a ha

theorem emitString_never_ends {s : State} (h : ∀ a, cellRead s a ≠ 0x0000#16)
    (bytes : Word → List Byte) : emitString s bytes = .fault .stringNeverEnds := by
  rw [emitString, stringAt_eq_none s _ h]

/-- Settles O25: PUTS and PUTSP walk the same string. -/
theorem stringRoutinesCompleteIffAZeroCellExists :
    Obligations.StringRoutinesCompleteIffAZeroCellExists :=
  fun _ => ⟨fun h => ⟨emitString_completes h _, emitString_completes h _⟩,
    fun h => ⟨emitString_never_ends h _, emitString_never_ends h _⟩⟩

/-! ### The end of a run (R127) -/

/-- Settles O26: HALT emits the message and ends the run, and an ended run has no step. -/
theorem haltEndsTheRunWithSuccess : Obligations.HaltEndsTheRunWithSuccess := by
  intro s
  have hexec : exec .halt s = .next (haltRun (emit s s.cfg.haltMessage)) := exec_service .halt .halt s rfl
  have ended : (haltRun (emit s s.cfg.haltMessage)).status ≠ .running := by simp
  exact ⟨_, hexec, rfl, rfl, fun _ _ => rfl, rfl, rfl, rfl, ⟨fun _ _ => rfl, rfl, rfl, rfl⟩,
    step_of_ended ended, rfl⟩

/-! ### What every routine leaves unchanged (R121, R132) -/

/-- GETC's and IN's shared part emits nothing but the echo of some character. -/
theorem readChar_outSeq {s t : State} {echo : Byte → List Byte} (h : readChar s echo = .next t) :
    ∃ c, t.outSeq = s.outSeq ++ echo c := by
  obtain ⟨-, e⟩ | ⟨c, rest, -, e⟩ := readChar_cases s echo <;> rw [e] at h <;> cases h
  exact ⟨c, rfl⟩

theorem getc_outSeq {s t : State} (h : runService s .getc = .next t) : t.outSeq = s.outSeq := by
  obtain ⟨-, hout⟩ := readChar_outSeq h
  rwa [List.append_nil] at hout

/-- Settles O27: the frame of `runService_frame`, and who is left with R0, COND, INPUT, OUT_SEQ and the run status. -/
theorem serviceRoutinesTouchOnlyTheirState : Obligations.ServiceRoutinesTouchOnlyTheirState := by
  intro i v s t hi h
  rw [exec_service i v s hi] at h
  obtain ⟨hregs, hpc, hmem, hdraws, hpolls, hcfg, -, -⟩ := runService_frame s t v h
  refine ⟨fun r hr => hregs r (by simpa using hr), hpc, fun a _ => by rw [cellRead, hmem, cellRead],
    hdraws, hpolls, hcfg, fun hgetc hin => ?_, ?_, fun hhalt => ?_⟩
  · have hchar : ¬ (v = .getc ∨ v = .inChar) := not_or.mpr ⟨hgetc, hin⟩
    obtain ⟨hall, hcond⟩ := runService_keeps_regs h hchar
    obtain ⟨hinput, -⟩ := runService_inputKept h hchar
    exact ⟨by rw [State.reg, State.reg, hall], hcond, hinput⟩
  · rintro rfl
    exact getc_outSeq h
  · rw [runService_status h, if_neg hhalt]

end Sys2Proof.Machine

/-! PROOFS. Exceptions (60_exceptions): the one state a faulting step leaves, and what it keeps. -/

namespace Sys2Proof.Machine

/-! ### A faulting step (60_exceptions R140, R141) -/

/-- An exception is taken on the state the fetch leaves. -/
theorem step_raises {s : State} {c : Cause} (hrun : s.status = .running)
    (hc : causeOf (decode (fetch s).1) = some c) : step s = .next (raise (fetch s).2 c) := by
  rw [step_of_running s hrun, exec_cause _ c _ hc]

/-- The handler takes back the increment, so the record holds the fetch PC (R140). -/
theorem raise_fetch_status (s : State) (c : Cause) :
    (raise (fetch s).2 c).status = .faulted c s.pc := by
  rw [raise_status, fetch_pc, BitVec.add_sub_cancel]

/-- Of a faulting step, only the fetch's MemRead can touch memory or the input side. -/
theorem raise_fetch_cellsAndInputKept (s : State) (c : Cause) :
    CellsAndInputKept (afterRead s s.pc) (raise (fetch s).2 c) :=
  ⟨fun _ _ => rfl, rfl, rfl, rfl⟩

/-- Settles O29: the step is the fetch and `raise`, and the fetch polls only at KBSR_ADDR. -/
theorem faultsArePrecise : Obligations.FaultsArePrecise := by
  intro s c hrun hc
  have kept := raise_fetch_cellsAndInputKept s c
  have ended : (raise (fetch s).2 c).status ≠ .running := by simp
  refine ⟨_, step_raises hrun hc, raise_fetch_status s c, fetch_pc s, fun r _ => fetch_reg s r,
    fetch_cond s, fetch_outSeq s, fetch_cfg s, fun hpc => ?_, fun hpc => ?_, step_of_ended ended⟩
  · rwa [afterRead_other s s.pc hpc] at kept
  · rwa [hpc, afterRead_kbsr] at kept

end Sys2Proof.Machine

/-! PROOFS. The host's side of a run (70_reset): what an image file is, which files load, and what an ended run
answers. -/

namespace Sys2Proof.Machine

/-! ### How a run that has ended answers (70_reset R170) -/

theorem exitsOk_iff (c : Config) : c.exitsOk = true ↔
    c.exitHalt = 0 ∧ c.exitUsage ≠ c.exitLoad ∧ c.exitUsage ≠ 0 ∧ c.exitLoad ≠ 0 ∧ c.exitFault ≠ 0 := by
  simp [Config.exitsOk, and_assoc]

theorem exitStatus_of_succeeded {s : State} (h : Succeeded s) : exitStatus s = some s.cfg.exitHalt := by
  rw [exitStatus, show s.status = .halted from h]

theorem diagnostic_of_succeeded {s : State} (h : Succeeded s) : diagnostic s = none := by
  rw [diagnostic, show s.status = .halted from h]

theorem exitStatus_of_failed {s : State} (h : Failed s) : exitStatus s = some s.cfg.exitFault := by
  obtain ⟨c, fpc, hstatus⟩ := h
  rw [exitStatus, hstatus]

/-- Under R170's constraints the exit status tells success from a fault. -/
theorem ends_iff_exitStatus {s : State} (hok : s.cfg.exitsOk = true) :
    (Succeeded s ↔ exitStatus s = some 0) ∧ (Failed s ↔ ∃ n, n ≠ 0 ∧ exitStatus s = some n) := by
  obtain ⟨hhalt, -, -, -, hfault⟩ := (exitsOk_iff _).mp hok
  cases hs : s.status with
  | running => simp [Succeeded, Failed, exitStatus, hs]
  | halted => simp [Succeeded, Failed, exitStatus, hs, hhalt]
  | faulted c fpc => simp [Succeeded, Failed, exitStatus, hs, hfault]

/-- Settles O33: a step keeps the parameters (O45), and its run status is an exception's exactly when the fetched
word raises it (O31). -/
theorem exitStatusAndDiagnosticFollowTheEnd : Obligations.ExitStatusAndDiagnosticFollowTheEnd := by
  intro s t h
  obtain ⟨-, -, hcfg⟩ := outputGrowsInputShrinksParametersStay s t h
  obtain ⟨-, -, hfault, -⟩ := runsEndOnlyByHaltOrException s t h
  rw [← hcfg]
  refine ⟨fun hs => ⟨exitStatus_of_succeeded hs, diagnostic_of_succeeded hs⟩, exitStatus_of_failed,
    fun op hop => ?_, fun vec hvec => ?_, ends_iff_exitStatus⟩
  · rw [diagnostic, (hfault _ _).mpr ⟨hop, rfl⟩]
  · rw [diagnostic, (hfault _ _).mpr ⟨hvec, rfl⟩]

/-! ### Image files (70_reset R162, R164) -/

/-- The bytes of a word, its high one first, give the word back. -/
theorem bytes_append_eq_word (w : Word) :
    (BitVec.ofNat 8 (w.toNat / 256) ++ BitVec.ofNat 8 (w.toNat % 256) : Word) = w := by
  have hlow : w.toNat % 256 < 2 ^ 8 := Nat.mod_lt _ (by decide)
  have hlt : w.toNat < 65536 := w.isLt
  apply BitVec.eq_of_toNat_eq
  rw [BitVec.toNat_append, BitVec.toNat_ofNat, BitVec.toNat_ofNat, Nat.mod_mod,
    ← Nat.shiftLeft_add_eq_or_of_lt hlow, Nat.shiftLeft_eq]
  omega

theorem bigEndianWords_of_words (ws : List Word) :
    bigEndianWords (ws.flatMap (fun w =>
      [BitVec.ofNat 8 (w.toNat / 256), BitVec.ofNat 8 (w.toNat % 256)])) = some ws := by
  induction ws with
  | nil => rfl
  | cons w ws ih =>
    simp only [List.flatMap_cons, List.cons_append, List.nil_append, bigEndianWords]
    rw [ih, bytes_append_eq_word]; rfl

theorem parseImage_of_words {bytes : List Byte} {o : Word} {ws : List Word}
    (h : bigEndianWords bytes = some (o :: ws)) :
    parseImage bytes = if o.toNat + ws.length ≤ 65536 then some ⟨o, ws⟩ else none := by
  rw [parseImage, h]

/-- Settles O53: the bytes are read back as the words, and the image fits. -/
theorem imagesAreReadBigEndianOriginFirst : Obligations.ImagesAreReadBigEndianOriginFirst := by
  intro o ws hfits
  rw [parseImage_of_words (bigEndianWords_of_words (o :: ws)), if_pos hfits]

/-- The three ways of being no image (R164). -/
theorem parseImage_eq_none_iff (bytes : List Byte) : parseImage bytes = none ↔
    bytes.length % 2 = 1 ∨ bytes = [] ∨ (∃ hi lo rest, bytes = hi :: lo :: rest ∧
      (hi ++ lo : Word).toNat + rest.length / 2 > 65536) := by
  rw [← bigEndianWords_eq_none_iff]
  match bytes with
  | [] => simp [parseImage, bigEndianWords]
  | [_] => simp [parseImage, bigEndianWords]
  | hi :: lo :: rest =>
    cases hws : bigEndianWords rest with
    | none =>
      have odd : bigEndianWords (hi :: lo :: rest) = none := by rw [bigEndianWords, hws, Option.map_none]
      simp [parseImage, odd]
    | some ws =>
      have words : bigEndianWords (hi :: lo :: rest) = some ((hi ++ lo) :: ws) := by
        rw [bigEndianWords, hws, Option.map_some]
      simp [parseImage_of_words words, words, bigEndianWords_length rest ws hws]

/-! ### Which launches start (70_reset R163, R164) -/

theorem loadImages_cons_refused {f : Option (List Byte)} (h : f.bind parseImage = none)
    (files : List (Option (List Byte))) (m : Memory) (i : Nat) :
    loadImages m i (f :: files) = .error (.load i) := by
  rw [loadImages, h]

theorem loadImages_cons_image {f : Option (List Byte)} {img : Image} (h : f.bind parseImage = some img)
    (files : List (Option (List Byte))) (m : Memory) (i : Nat) :
    loadImages m i (f :: files) =
      loadImages (placeWords m img.origin.toNat img.words) (i + 1) files := by
  rw [loadImages, h]

/-- Loading stops with a refusal exactly when some file is no image. -/
theorem loadImages_refused_iff (files : List (Option (List Byte))) (m : Memory) (i : Nat) :
    (∃ f ∈ files, f.bind parseImage = none) ↔ ∃ j, loadImages m i files = .error (.load j) := by
  induction files generalizing m i with
  | nil => simp [loadImages]
  | cons f files ih =>
    cases himg : f.bind parseImage with
    | none => exact iff_of_true ⟨f, List.mem_cons_self, himg⟩ ⟨i, loadImages_cons_refused himg files m i⟩
    | some img => rw [loadImages_cons_image himg, ← ih, List.exists_mem_cons_iff, himg]; simp

theorem loadImages_wf {files : List (Option (List Byte))} {m n : Memory} {i : Nat} (hm : m.wf)
    (h : loadImages m i files = .ok n) : n.wf := by
  induction files generalizing m i with
  | nil => cases h; exact hm
  | cons f files ih =>
    cases himg : f.bind parseImage with
    | none => rw [loadImages_cons_refused himg] at h; cases h
    | some img =>
      rw [loadImages_cons_image himg] at h
      obtain ⟨bytes, -, hparse⟩ := Option.bind_eq_some_iff.mp himg
      exact ih (placeWords_wf _ _ _ (parseImage_fits bytes img hparse) hm) h

theorem launch_of_files {files : List (Option (List Byte))} (h : files ≠ []) (cfg : Config)
    (input : List Byte) (draws : List Bool) :
    launch cfg files input draws =
      (loadImages [] 0 files).map (fun m => bootState cfg m input draws) := by
  cases files with
  | nil => exact absurd rfl h
  | cons f files => rfl

/-- Settles O55: `loadImages_refused_iff` from the empty memory, and the three ways of being no image. -/
theorem badImagesAreRefused : Obligations.BadImagesAreRefused := by
  refine ⟨fun _ _ _ => rfl, fun cfg files input draws hne => ?_, parseImage_eq_none_iff,
    fun cfg i hok => ?_⟩
  · rw [launch_of_files hne, loadImages_refused_iff files [] 0]
    cases loadImages [] 0 files <;> simp [Except.map]
  · obtain ⟨-, hdiffer, husage, hload, -⟩ := (exitsOk_iff cfg).mp hok
    exact ⟨hdiffer, husage, hload⟩

/-- Settles O56: loading starts from the canonical empty memory, and every placed image keeps the form. -/
theorem launchedMemoryIsCanonical : Obligations.LaunchedMemoryIsCanonical := by
  intro cfg files input draws s h
  cases files with
  | nil => cases h
  | cons f files =>
    rw [launch_of_files (List.cons_ne_nil f files)] at h
    cases hload : loadImages [] 0 (f :: files) with
    | error e => rw [hload] at h; cases h
    | ok m =>
      rw [hload] at h; cases h
      exact loadImages_wf resetMemoryIsCanonical hload

end Sys2Proof.Machine
